-- ==== Sys2Proof/Word.lean ====
section
/-! DEFINITION. The engine's data words: a byte and a byte string (spec/00_scope.md R8).

The engine has no machine word: every register is a flag, a counter of its own width or a byte
string, and every buffer is byte addressed.  Multi-byte integers are turned into bytes and back in
Sys2Proof/Decode.lean. -/

namespace Sys2Proof

/-- R8: a byte (octet) is 8 bits, bit 7 the most significant. -/
abbrev Byte := BitVec 8

/-- R8: a byte string, first byte first. -/
abbrev Bytes := List Byte

end Sys2Proof
end

