-- ==== Sys2Proof/Syntax.lean ====
section
/-! DEFINITION. The command set of spec/30_encoding.md R112: one constructor per row of
spec/opcode_table.json, with its operands in the row's order, and the operand types of R10/R108. -/

namespace Sys2Proof

/-- R10, R108: the types an operand or a result can have on the wire. -/
inductive OperandType where
  /-- one byte, the value -/
  | u8
  /-- two bytes, big-endian -/
  | u16
  /-- four bytes, big-endian -/
  | u32
  /-- six bytes, big-endian -/
  | u48
  /-- one byte, 0x00 or 0x01 -/
  | bool
  /-- one byte, two's complement -/
  | i8
  /-- a two-byte length, then that many bytes -/
  | bytes
  deriving DecidableEq, Repr

/-- One operand or result value, under its type of R108. -/
inductive Operand where
  | u8 (v : BitVec 8)
  | u16 (v : BitVec 16)
  | u32 (v : BitVec 32)
  | u48 (v : BitVec 48)
  | bool (b : Bool)
  | i8 (v : Int)
  | bytes (data : Bytes)
  deriving DecidableEq, Repr

/-- The 64 commands of R112, in the table's order. -/
inductive Instr where
  -- PKT: the RTP packet slot and its fixed-header fields
  | rtpNew (pt : BitVec 8) (seq : BitVec 16) (ts : BitVec 32) (ssrc : BitVec 32) (payload : Bytes)
  | rtpLoad (data : Bytes)
  | rtpStore
  | rtpGetP
  | rtpGetX
  | rtpGetCc
  | rtpGetM
  | rtpGetPt
  | rtpGetSeq
  | rtpGetTs
  | rtpGetSsrc
  | rtpSetP (p : Bool)
  | rtpSetX (x : Bool)
  | rtpSetCc (cc : BitVec 8)
  | rtpSetM (m : Bool)
  | rtpSetPt (pt : BitVec 8)
  | rtpSetSeq (seq : BitVec 16)
  | rtpSetTs (ts : BitVec 32)
  | rtpSetSsrc (ssrc : BitVec 32)
  -- PKT: sections
  | rtpSetCsrc (list : Bytes)
  | rtpSetHdrExt (profile : BitVec 16) (data : Bytes)
  | rtpSetPayload (data : Bytes)
  | rtpSetPadding (sizeMult : BitVec 16)
  | rtpGetPayload
  | rtpGetCsrc
  | rtpGetHdrExt
  -- PKT: one-byte header extensions, audio level, OHB
  | rtpSetGenExt (id : BitVec 8) (data : Bytes)
  | rtpGetGenExt (id : BitVec 8)
  | rtpSetVol (vad : Bool) (dbov : Int)
  | rtpGetVol
  | rtpSetOhb (pt : BitVec 8) (seq : BitVec 16) (m : Bool)
  | rtpGetOhb
  | rtpGetOhbLen
  -- AEAD, RTP side
  | rtpEncGcm (roc : BitVec 32) (key : Bytes) (salt : Bytes)
  | rtpDecGcm (roc : BitVec 32) (key : Bytes) (salt : Bytes)
  -- RTCP
  | rtcpLoad (data : Bytes)
  | rtcpLoads (data : Bytes)
  | rtcpStore
  | rtcpGetPt
  | rtcpGetLenW
  | rtcpGetLenB
  | rtcpGetSsrc
  | rtcpGetIndex
  | rtcpGetE
  | rtcpSetPt (pt : BitVec 8)
  | rtcpSetLenW (words : BitVec 16)
  | rtcpSetSsrc (ssrc : BitVec 32)
  | rtcpSetIndex (index : BitVec 32)
  | rtcpSetE (e : Bool)
  | rtcpEncGcm (key : Bytes) (salt : Bytes)
  | rtcpDecGcm (key : Bytes) (salt : Bytes)
  -- KDF
  | kdfInit (key : Bytes) (salt : Bytes)
  | kdfDerive (label : BitVec 8) (index : BitVec 48) (size : BitVec 16)
  | kdfDeriveStream (cipher : BitVec 16)
  -- SES
  | sesSetSrtp (cipher : BitVec 16) (useEkt : Bool) (key : Bytes) (salt : Bytes)
  | sesSetExtMap (id : BitVec 8) (uri : Bytes)
  | sesSetRewrite (on : Bool)
  | sesSetSeq (seq : BitVec 16)
  | sesEncode
  | sesDecode (wire : Bytes)
  | sesEncRtcp
  | sesDecRtcp (wire : Bytes)
  | sesGetSeq
  | sesGetRoc
  deriving DecidableEq, Repr

end Sys2Proof
end

