-- ==== Sys2Proof/WellFormed.lean ====
section
/-! DEFINITION. Which terms of `Instr` a descriptor can carry (spec/30_encoding.md R108): a `bytes`
operand has at most 65535 bytes, an `i8` operand lies in -128..127.  Every other operand type holds
exactly the values its encoding admits.  What a command then does with a value it cannot use is the
command's own rule (R109), not a matter of well-formedness. -/

namespace Sys2Proof

/-- R108: the length prefix of a `bytes` operand has 16 bits. -/
def fitsLength (data : Bytes) : Bool := decide (data.length ≤ 65535)

/-- R108: an `i8` operand is a signed byte. -/
def fitsSignedByte (v : Int) : Bool := decide (-128 ≤ v) && decide (v ≤ 127)

/-- The well-formed commands: those that some descriptor encodes. -/
def WellFormed : Instr → Bool
  | .rtpNew _ _ _ _ payload => fitsLength payload
  | .rtpLoad data => fitsLength data
  | .rtpStore => true
  | .rtpGetP => true
  | .rtpGetX => true
  | .rtpGetCc => true
  | .rtpGetM => true
  | .rtpGetPt => true
  | .rtpGetSeq => true
  | .rtpGetTs => true
  | .rtpGetSsrc => true
  | .rtpSetP _ => true
  | .rtpSetX _ => true
  | .rtpSetCc _ => true
  | .rtpSetM _ => true
  | .rtpSetPt _ => true
  | .rtpSetSeq _ => true
  | .rtpSetTs _ => true
  | .rtpSetSsrc _ => true
  | .rtpSetCsrc list => fitsLength list
  | .rtpSetHdrExt _ data => fitsLength data
  | .rtpSetPayload data => fitsLength data
  | .rtpSetPadding _ => true
  | .rtpGetPayload => true
  | .rtpGetCsrc => true
  | .rtpGetHdrExt => true
  | .rtpSetGenExt _ data => fitsLength data
  | .rtpGetGenExt _ => true
  | .rtpSetVol _ dbov => fitsSignedByte dbov
  | .rtpGetVol => true
  | .rtpSetOhb _ _ _ => true
  | .rtpGetOhb => true
  | .rtpGetOhbLen => true
  | .rtpEncGcm _ key salt => fitsLength key && fitsLength salt
  | .rtpDecGcm _ key salt => fitsLength key && fitsLength salt
  | .rtcpLoad data => fitsLength data
  | .rtcpLoads data => fitsLength data
  | .rtcpStore => true
  | .rtcpGetPt => true
  | .rtcpGetLenW => true
  | .rtcpGetLenB => true
  | .rtcpGetSsrc => true
  | .rtcpGetIndex => true
  | .rtcpGetE => true
  | .rtcpSetPt _ => true
  | .rtcpSetLenW _ => true
  | .rtcpSetSsrc _ => true
  | .rtcpSetIndex _ => true
  | .rtcpSetE _ => true
  | .rtcpEncGcm key salt => fitsLength key && fitsLength salt
  | .rtcpDecGcm key salt => fitsLength key && fitsLength salt
  | .kdfInit key salt => fitsLength key && fitsLength salt
  | .kdfDerive _ _ _ => true
  | .kdfDeriveStream _ => true
  | .sesSetSrtp _ _ key salt => fitsLength key && fitsLength salt
  | .sesSetExtMap _ uri => fitsLength uri
  | .sesSetRewrite _ => true
  | .sesSetSeq _ => true
  | .sesEncode => true
  | .sesDecode wire => fitsLength wire
  | .sesEncRtcp => true
  | .sesDecRtcp wire => fitsLength wire
  | .sesGetSeq => true
  | .sesGetRoc => true

end Sys2Proof
end

