-- ==== Sys2Proof/Decode.lean ====
section
/-! DEFINITION. Byte order, command descriptors and their decoding and encoding
(spec/30_encoding.md part B, spec/00_scope.md R8, R9).

A descriptor is the opcode byte and then the operands, in the order of R112 and the encodings of
R108; nothing else (R105).  The decoder is total on every byte string (R107) and names why it
refuses one.  DESIGN CHOICE (log 3): the engine answers every refusal with the one status
`IllegalCommand`, so the five names are the model's. Safe. -/

namespace Sys2Proof

/-! ## Byte order (R8, R9) -/

/-- R9 `BE_n(v)`, and the bytes `MemWrite` writes: the `n` big-endian bytes of `v mod 2^(8n)`. -/
def beBytes : Nat → Nat → Bytes
  | 0, _ => []
  | n + 1, v => BitVec.ofNat 8 (v / 256 ^ n) :: beBytes n v

/-- R9 `MemRead`: the unsigned integer whose big-endian bytes are given. -/
def beNat : Bytes → Nat :=
  fun bs => bs.foldl (fun acc b => acc * 256 + b.toNat) 0

/-! ## Operands (R108) -/

/-- R108: the bytes that carry one operand or one result. -/
def encodeOperand : Operand → Bytes
  | .u8 v => beBytes 1 v.toNat
  | .u16 v => beBytes 2 v.toNat
  | .u32 v => beBytes 4 v.toNat
  | .u48 v => beBytes 6 v.toNat
  | .bool b => [if b then 0x01#8 else 0x00#8]
  | .i8 v => [BitVec.ofInt 8 v]
  | .bytes data => beBytes 2 data.length ++ data

/-- R105, R108: operands or results one after the other, with no padding between them. -/
def encodeOperands (ops : List Operand) : Bytes := ops.flatMap encodeOperand

/-- Why a byte string is no descriptor (R107); each is answered `IllegalCommand` (R342 cause 1). -/
inductive DecodeError where
  /-- R107 (1): the empty string. -/
  | emptyDescriptor
  /-- R107 (2), R111: byte 0 is not an opcode of R112. -/
  | unassignedOpcode (op : Byte)
  /-- R107 (3): the string ends inside an operand. -/
  | truncatedOperand
  /-- R107 (4): bytes remain after the last operand. -/
  | trailingBytes
  /-- R107 (5): a `bool` byte other than 0x00 or 0x01. -/
  | illegalBool (b : Byte)
  deriving DecidableEq, Repr

/-- The next `n` bytes of the descriptor and what follows them; refuses if it ends before. -/
def takeBytes (n : Nat) (bs : Bytes) : Except DecodeError (Bytes × Bytes) :=
  if bs.length < n then .error .truncatedOperand else .ok (bs.take n, bs.drop n)

/-- R108: one operand of the given type, and the rest of the descriptor. -/
def decodeOperand : OperandType → Bytes → Except DecodeError (Operand × Bytes)
  | .u8, bs => (takeBytes 1 bs).map fun r => (.u8 (BitVec.ofNat 8 (beNat r.1)), r.2)
  | .u16, bs => (takeBytes 2 bs).map fun r => (.u16 (BitVec.ofNat 16 (beNat r.1)), r.2)
  | .u32, bs => (takeBytes 4 bs).map fun r => (.u32 (BitVec.ofNat 32 (beNat r.1)), r.2)
  | .u48, bs => (takeBytes 6 bs).map fun r => (.u48 (BitVec.ofNat 48 (beNat r.1)), r.2)
  | .i8, bs => (takeBytes 1 bs).map fun r => (.i8 (BitVec.ofNat 8 (beNat r.1)).toInt, r.2)
  | .bool, bs =>
    match bs with
    | [] => .error .truncatedOperand
    | b :: rest =>
      if b = 0x00#8 then .ok (.bool false, rest)
      else if b = 0x01#8 then .ok (.bool true, rest)
      else .error (.illegalBool b)
  | .bytes, bs =>
    match takeBytes 2 bs with
    | .error e => .error e
    | .ok (len, rest) => (takeBytes (beNat len) rest).map fun r => (.bytes r.1, r.2)

/-- R107 (3): the operands of a descriptor, left to right, and what remains. -/
def decodeOperands : List OperandType → Bytes → Except DecodeError (List Operand × Bytes)
  | [], bs => .ok ([], bs)
  | t :: ts, bs =>
    match decodeOperand t bs with
    | .error e => .error e
    | .ok (op, rest) =>
      match decodeOperands ts rest with
      | .error e => .error e
      | .ok (ops, rest') => .ok (op :: ops, rest')

/-! ## The opcode map (R112) -/

/-- R112: the operand list that an opcode fixes; none for the 192 unassigned values of R111. -/
def operandTypes (op : Byte) : Option (List OperandType) :=
  match op.toNat with
  | 0x10 => some [.u8, .u16, .u32, .u32, .bytes]
  | 0x11 => some [.bytes]
  | 0x12 => some []
  | 0x20 => some []
  | 0x21 => some []
  | 0x22 => some []
  | 0x23 => some []
  | 0x24 => some []
  | 0x25 => some []
  | 0x26 => some []
  | 0x27 => some []
  | 0x28 => some [.bool]
  | 0x29 => some [.bool]
  | 0x2A => some [.u8]
  | 0x2B => some [.bool]
  | 0x2C => some [.u8]
  | 0x2D => some [.u16]
  | 0x2E => some [.u32]
  | 0x2F => some [.u32]
  | 0x30 => some [.bytes]
  | 0x31 => some [.u16, .bytes]
  | 0x32 => some [.bytes]
  | 0x33 => some [.u16]
  | 0x34 => some []
  | 0x35 => some []
  | 0x36 => some []
  | 0x40 => some [.u8, .bytes]
  | 0x41 => some [.u8]
  | 0x42 => some [.bool, .i8]
  | 0x43 => some []
  | 0x48 => some [.u8, .u16, .bool]
  | 0x49 => some []
  | 0x4A => some []
  | 0x4C => some [.u32, .bytes, .bytes]
  | 0x4D => some [.u32, .bytes, .bytes]
  | 0x50 => some [.bytes]
  | 0x51 => some [.bytes]
  | 0x52 => some []
  | 0x53 => some []
  | 0x54 => some []
  | 0x55 => some []
  | 0x56 => some []
  | 0x57 => some []
  | 0x58 => some []
  | 0x59 => some [.u8]
  | 0x5A => some [.u16]
  | 0x5B => some [.u32]
  | 0x5C => some [.u32]
  | 0x5D => some [.bool]
  | 0x5E => some [.bytes, .bytes]
  | 0x5F => some [.bytes, .bytes]
  | 0x60 => some [.bytes, .bytes]
  | 0x61 => some [.u8, .u48, .u16]
  | 0x62 => some [.u16]
  | 0x70 => some [.u16, .bool, .bytes, .bytes]
  | 0x71 => some [.u8, .bytes]
  | 0x72 => some [.bool]
  | 0x73 => some [.u16]
  | 0x74 => some []
  | 0x75 => some [.bytes]
  | 0x76 => some []
  | 0x77 => some [.bytes]
  | 0x78 => some []
  | 0x79 => some []
  | _ => none

/-- R112: the command an opcode and its operands name; none where they are not a row's. -/
def Instr.ofOperands (op : Byte) (ops : List Operand) : Option Instr :=
  match op.toNat with
  | 0x10 => match ops with | [.u8 pt, .u16 seq, .u32 ts, .u32 ssrc, .bytes payload] => some (.rtpNew pt seq ts ssrc payload) | _ => none
  | 0x11 => match ops with | [.bytes data] => some (.rtpLoad data) | _ => none
  | 0x12 => match ops with | [] => some .rtpStore | _ => none
  | 0x20 => match ops with | [] => some .rtpGetP | _ => none
  | 0x21 => match ops with | [] => some .rtpGetX | _ => none
  | 0x22 => match ops with | [] => some .rtpGetCc | _ => none
  | 0x23 => match ops with | [] => some .rtpGetM | _ => none
  | 0x24 => match ops with | [] => some .rtpGetPt | _ => none
  | 0x25 => match ops with | [] => some .rtpGetSeq | _ => none
  | 0x26 => match ops with | [] => some .rtpGetTs | _ => none
  | 0x27 => match ops with | [] => some .rtpGetSsrc | _ => none
  | 0x28 => match ops with | [.bool p] => some (.rtpSetP p) | _ => none
  | 0x29 => match ops with | [.bool x] => some (.rtpSetX x) | _ => none
  | 0x2A => match ops with | [.u8 cc] => some (.rtpSetCc cc) | _ => none
  | 0x2B => match ops with | [.bool m] => some (.rtpSetM m) | _ => none
  | 0x2C => match ops with | [.u8 pt] => some (.rtpSetPt pt) | _ => none
  | 0x2D => match ops with | [.u16 seq] => some (.rtpSetSeq seq) | _ => none
  | 0x2E => match ops with | [.u32 ts] => some (.rtpSetTs ts) | _ => none
  | 0x2F => match ops with | [.u32 ssrc] => some (.rtpSetSsrc ssrc) | _ => none
  | 0x30 => match ops with | [.bytes list] => some (.rtpSetCsrc list) | _ => none
  | 0x31 => match ops with | [.u16 profile, .bytes data] => some (.rtpSetHdrExt profile data) | _ => none
  | 0x32 => match ops with | [.bytes data] => some (.rtpSetPayload data) | _ => none
  | 0x33 => match ops with | [.u16 sizeMult] => some (.rtpSetPadding sizeMult) | _ => none
  | 0x34 => match ops with | [] => some .rtpGetPayload | _ => none
  | 0x35 => match ops with | [] => some .rtpGetCsrc | _ => none
  | 0x36 => match ops with | [] => some .rtpGetHdrExt | _ => none
  | 0x40 => match ops with | [.u8 id, .bytes data] => some (.rtpSetGenExt id data) | _ => none
  | 0x41 => match ops with | [.u8 id] => some (.rtpGetGenExt id) | _ => none
  | 0x42 => match ops with | [.bool vad, .i8 dbov] => some (.rtpSetVol vad dbov) | _ => none
  | 0x43 => match ops with | [] => some .rtpGetVol | _ => none
  | 0x48 => match ops with | [.u8 pt, .u16 seq, .bool m] => some (.rtpSetOhb pt seq m) | _ => none
  | 0x49 => match ops with | [] => some .rtpGetOhb | _ => none
  | 0x4A => match ops with | [] => some .rtpGetOhbLen | _ => none
  | 0x4C => match ops with | [.u32 roc, .bytes key, .bytes salt] => some (.rtpEncGcm roc key salt) | _ => none
  | 0x4D => match ops with | [.u32 roc, .bytes key, .bytes salt] => some (.rtpDecGcm roc key salt) | _ => none
  | 0x50 => match ops with | [.bytes data] => some (.rtcpLoad data) | _ => none
  | 0x51 => match ops with | [.bytes data] => some (.rtcpLoads data) | _ => none
  | 0x52 => match ops with | [] => some .rtcpStore | _ => none
  | 0x53 => match ops with | [] => some .rtcpGetPt | _ => none
  | 0x54 => match ops with | [] => some .rtcpGetLenW | _ => none
  | 0x55 => match ops with | [] => some .rtcpGetLenB | _ => none
  | 0x56 => match ops with | [] => some .rtcpGetSsrc | _ => none
  | 0x57 => match ops with | [] => some .rtcpGetIndex | _ => none
  | 0x58 => match ops with | [] => some .rtcpGetE | _ => none
  | 0x59 => match ops with | [.u8 pt] => some (.rtcpSetPt pt) | _ => none
  | 0x5A => match ops with | [.u16 words] => some (.rtcpSetLenW words) | _ => none
  | 0x5B => match ops with | [.u32 ssrc] => some (.rtcpSetSsrc ssrc) | _ => none
  | 0x5C => match ops with | [.u32 index] => some (.rtcpSetIndex index) | _ => none
  | 0x5D => match ops with | [.bool e] => some (.rtcpSetE e) | _ => none
  | 0x5E => match ops with | [.bytes key, .bytes salt] => some (.rtcpEncGcm key salt) | _ => none
  | 0x5F => match ops with | [.bytes key, .bytes salt] => some (.rtcpDecGcm key salt) | _ => none
  | 0x60 => match ops with | [.bytes key, .bytes salt] => some (.kdfInit key salt) | _ => none
  | 0x61 => match ops with | [.u8 label, .u48 index, .u16 size] => some (.kdfDerive label index size) | _ => none
  | 0x62 => match ops with | [.u16 cipher] => some (.kdfDeriveStream cipher) | _ => none
  | 0x70 => match ops with | [.u16 cipher, .bool useEkt, .bytes key, .bytes salt] => some (.sesSetSrtp cipher useEkt key salt) | _ => none
  | 0x71 => match ops with | [.u8 id, .bytes uri] => some (.sesSetExtMap id uri) | _ => none
  | 0x72 => match ops with | [.bool on] => some (.sesSetRewrite on) | _ => none
  | 0x73 => match ops with | [.u16 seq] => some (.sesSetSeq seq) | _ => none
  | 0x74 => match ops with | [] => some .sesEncode | _ => none
  | 0x75 => match ops with | [.bytes wire] => some (.sesDecode wire) | _ => none
  | 0x76 => match ops with | [] => some .sesEncRtcp | _ => none
  | 0x77 => match ops with | [.bytes wire] => some (.sesDecRtcp wire) | _ => none
  | 0x78 => match ops with | [] => some .sesGetSeq | _ => none
  | 0x79 => match ops with | [] => some .sesGetRoc | _ => none
  | _ => none

/-- R107: the command a byte string describes, or why it describes none. -/
def decode : Bytes → Except DecodeError Instr
  | [] => .error .emptyDescriptor
  | op :: bs =>
    match operandTypes op with
    | none => .error (.unassignedOpcode op)
    | some ts =>
      match decodeOperands ts bs with
      | .error e => .error e
      | .ok (_, _ :: _) => .error .trailingBytes
      | .ok (ops, []) =>
        match Instr.ofOperands op ops with
        | none => .error (.unassignedOpcode op)
        | some i => .ok i

/-! ## The encoder (R105, R108, R112) -/

/-- R112: the opcode of a command. -/
def Instr.opcode : Instr → Byte
  | .rtpNew _ _ _ _ _ => 0x10#8
  | .rtpLoad _ => 0x11#8
  | .rtpStore => 0x12#8
  | .rtpGetP => 0x20#8
  | .rtpGetX => 0x21#8
  | .rtpGetCc => 0x22#8
  | .rtpGetM => 0x23#8
  | .rtpGetPt => 0x24#8
  | .rtpGetSeq => 0x25#8
  | .rtpGetTs => 0x26#8
  | .rtpGetSsrc => 0x27#8
  | .rtpSetP _ => 0x28#8
  | .rtpSetX _ => 0x29#8
  | .rtpSetCc _ => 0x2A#8
  | .rtpSetM _ => 0x2B#8
  | .rtpSetPt _ => 0x2C#8
  | .rtpSetSeq _ => 0x2D#8
  | .rtpSetTs _ => 0x2E#8
  | .rtpSetSsrc _ => 0x2F#8
  | .rtpSetCsrc _ => 0x30#8
  | .rtpSetHdrExt _ _ => 0x31#8
  | .rtpSetPayload _ => 0x32#8
  | .rtpSetPadding _ => 0x33#8
  | .rtpGetPayload => 0x34#8
  | .rtpGetCsrc => 0x35#8
  | .rtpGetHdrExt => 0x36#8
  | .rtpSetGenExt _ _ => 0x40#8
  | .rtpGetGenExt _ => 0x41#8
  | .rtpSetVol _ _ => 0x42#8
  | .rtpGetVol => 0x43#8
  | .rtpSetOhb _ _ _ => 0x48#8
  | .rtpGetOhb => 0x49#8
  | .rtpGetOhbLen => 0x4A#8
  | .rtpEncGcm _ _ _ => 0x4C#8
  | .rtpDecGcm _ _ _ => 0x4D#8
  | .rtcpLoad _ => 0x50#8
  | .rtcpLoads _ => 0x51#8
  | .rtcpStore => 0x52#8
  | .rtcpGetPt => 0x53#8
  | .rtcpGetLenW => 0x54#8
  | .rtcpGetLenB => 0x55#8
  | .rtcpGetSsrc => 0x56#8
  | .rtcpGetIndex => 0x57#8
  | .rtcpGetE => 0x58#8
  | .rtcpSetPt _ => 0x59#8
  | .rtcpSetLenW _ => 0x5A#8
  | .rtcpSetSsrc _ => 0x5B#8
  | .rtcpSetIndex _ => 0x5C#8
  | .rtcpSetE _ => 0x5D#8
  | .rtcpEncGcm _ _ => 0x5E#8
  | .rtcpDecGcm _ _ => 0x5F#8
  | .kdfInit _ _ => 0x60#8
  | .kdfDerive _ _ _ => 0x61#8
  | .kdfDeriveStream _ => 0x62#8
  | .sesSetSrtp _ _ _ _ => 0x70#8
  | .sesSetExtMap _ _ => 0x71#8
  | .sesSetRewrite _ => 0x72#8
  | .sesSetSeq _ => 0x73#8
  | .sesEncode => 0x74#8
  | .sesDecode _ => 0x75#8
  | .sesEncRtcp => 0x76#8
  | .sesDecRtcp _ => 0x77#8
  | .sesGetSeq => 0x78#8
  | .sesGetRoc => 0x79#8

/-- R112: the operands of a command, in the row's order. -/
def Instr.operands : Instr → List Operand
  | .rtpNew pt seq ts ssrc payload => [.u8 pt, .u16 seq, .u32 ts, .u32 ssrc, .bytes payload]
  | .rtpLoad data => [.bytes data]
  | .rtpStore => []
  | .rtpGetP => []
  | .rtpGetX => []
  | .rtpGetCc => []
  | .rtpGetM => []
  | .rtpGetPt => []
  | .rtpGetSeq => []
  | .rtpGetTs => []
  | .rtpGetSsrc => []
  | .rtpSetP p => [.bool p]
  | .rtpSetX x => [.bool x]
  | .rtpSetCc cc => [.u8 cc]
  | .rtpSetM m => [.bool m]
  | .rtpSetPt pt => [.u8 pt]
  | .rtpSetSeq seq => [.u16 seq]
  | .rtpSetTs ts => [.u32 ts]
  | .rtpSetSsrc ssrc => [.u32 ssrc]
  | .rtpSetCsrc list => [.bytes list]
  | .rtpSetHdrExt profile data => [.u16 profile, .bytes data]
  | .rtpSetPayload data => [.bytes data]
  | .rtpSetPadding sizeMult => [.u16 sizeMult]
  | .rtpGetPayload => []
  | .rtpGetCsrc => []
  | .rtpGetHdrExt => []
  | .rtpSetGenExt id data => [.u8 id, .bytes data]
  | .rtpGetGenExt id => [.u8 id]
  | .rtpSetVol vad dbov => [.bool vad, .i8 dbov]
  | .rtpGetVol => []
  | .rtpSetOhb pt seq m => [.u8 pt, .u16 seq, .bool m]
  | .rtpGetOhb => []
  | .rtpGetOhbLen => []
  | .rtpEncGcm roc key salt => [.u32 roc, .bytes key, .bytes salt]
  | .rtpDecGcm roc key salt => [.u32 roc, .bytes key, .bytes salt]
  | .rtcpLoad data => [.bytes data]
  | .rtcpLoads data => [.bytes data]
  | .rtcpStore => []
  | .rtcpGetPt => []
  | .rtcpGetLenW => []
  | .rtcpGetLenB => []
  | .rtcpGetSsrc => []
  | .rtcpGetIndex => []
  | .rtcpGetE => []
  | .rtcpSetPt pt => [.u8 pt]
  | .rtcpSetLenW words => [.u16 words]
  | .rtcpSetSsrc ssrc => [.u32 ssrc]
  | .rtcpSetIndex index => [.u32 index]
  | .rtcpSetE e => [.bool e]
  | .rtcpEncGcm key salt => [.bytes key, .bytes salt]
  | .rtcpDecGcm key salt => [.bytes key, .bytes salt]
  | .kdfInit key salt => [.bytes key, .bytes salt]
  | .kdfDerive label index size => [.u8 label, .u48 index, .u16 size]
  | .kdfDeriveStream cipher => [.u16 cipher]
  | .sesSetSrtp cipher useEkt key salt => [.u16 cipher, .bool useEkt, .bytes key, .bytes salt]
  | .sesSetExtMap id uri => [.u8 id, .bytes uri]
  | .sesSetRewrite on => [.bool on]
  | .sesSetSeq seq => [.u16 seq]
  | .sesEncode => []
  | .sesDecode wire => [.bytes wire]
  | .sesEncRtcp => []
  | .sesDecRtcp wire => [.bytes wire]
  | .sesGetSeq => []
  | .sesGetRoc => []

/-- R105: the descriptor of a command. -/
def encode (i : Instr) : Bytes := i.opcode :: encodeOperands i.operands

/-! ## Words of spec/opcode_table.json -/

/-- The bytes an operand takes, read from a descriptor whose missing bytes are zero. -/
def operandLength : OperandType → Bytes → Nat
  | .u8, _ => 1
  | .u16, _ => 2
  | .u32, _ => 4
  | .u48, _ => 6
  | .bool, _ => 1
  | .i8, _ => 1
  | .bytes, bs => 2 + beNat ((bs ++ [0x00#8, 0x00#8]).take 2)

/-- The bytes an operand list takes, read the same way. -/
def operandsLength : List OperandType → Bytes → Nat
  | [], _ => 0
  | t :: ts, bs => operandLength t bs + operandsLength ts (bs.drop (operandLength t bs))

/-- The table numbers a row's bits from the least significant bit of the FIRST byte; the engine's
"words" are bytes, so byte `k` of the descriptor is bits `8k+7..8k` of `w`. -/
def tableBytes (nbits w : Nat) : Bytes :=
  (List.range ((nbits + 7) / 8)).map fun k => BitVec.ofNat 8 (w >>> (8 * k))

/-- The descriptor of a table word: its bytes, and zero bytes for every operand byte above `nbits`
that the opcode (and the `bytes` length prefixes present) call for. -/
def tableDescriptor (nbits w : Nat) : Bytes :=
  match tableBytes nbits w with
  | [] => []
  | op :: bs =>
    match operandTypes op with
    | none => op :: bs
    | some ts => op :: bs ++ List.replicate (operandsLength ts bs - bs.length) 0x00#8

/-- The command the decoder reads from a table word, none where it refuses. -/
def decodeTableWord (nbits w : Nat) : Option Instr :=
  match decode (tableDescriptor nbits w) with
  | .error _ => none
  | .ok i => some i

end Sys2Proof
end

