-- ==== Sys2Proof/Config.lean ====
section
/-! DEFINITION. What an implementation fixes: the parameters of spec/00_scope.md R6 and R7, the
audio-level URI, and the one free value of the machine, `SEQ0`. -/

namespace Sys2Proof.Config

/-- R6 `MTU`: the hard cap on every packet buffer, in bytes. -/
def mtu : Nat := 1500

/-- R6 `RTP_FIXED`: length of the fixed RTP header. -/
def rtpFixed : Nat := 12

/-- R6 `CC_MAX`: most CSRC entries. -/
def ccMax : Nat := 15

/-- R6 `RTCP_HDR`: length of the RTCP header. -/
def rtcpHdr : Nat := 8

/-- R6 `ESRTCP_LEN`: length of the ESRTCP word. -/
def esrtcpLen : Nat := 4

/-- R6 `TAG_LEN`: AES-GCM tag length. -/
def tagLen : Nat := 16

/-- R6 `SALT_LEN`: session salt length, for both ciphers. -/
def saltLen : Nat := 12

/-- R6 `MSALT_LEN`: master salt register length. -/
def msaltLen : Nat := 14

/-- R6 `PROFILE_ONE_BYTE`: the profile id of the RFC 8285 one-byte form. -/
def profileOneByte : BitVec 16 := 0xBEDE#16

/-- R7 `URI_MAX`: longest URI of an extension-map slot.
DESIGN CHOICE (log 2): the spec's own default, the parameter being open. Unsafe. -/
def uriMax : Nat := 255

/-- R7 `EKT_MAX`: capacity of `PKT.EKT`.
DESIGN CHOICE (log 2): the spec's own default, the parameter being open. Unsafe. -/
def ektMax : Nat := 1500

/-- R7, R33 `SEQ0`: the value of `SES.SEQ` that the `n`-th reset of the instance draws, an
unconstrained value of 0..0x7FFF.  No body: nothing can be proved of it but its 15-bit range. -/
opaque seq0 : Nat → BitVec 15

/-- R6 `AUDIO_LEVEL_URI`: the 43 ASCII bytes `urn:ietf:params:rtp-hdrext:ssrc-audio-level`. -/
def audioLevelUri : Bytes :=
  [0x75, 0x72, 0x6E, 0x3A, 0x69, 0x65, 0x74, 0x66, 0x3A, 0x70, 0x61, 0x72, 0x61, 0x6D, 0x73, 0x3A] ++
  [0x72, 0x74, 0x70, 0x2D, 0x68, 0x64, 0x72, 0x65, 0x78, 0x74, 0x3A] ++
  [0x73, 0x73, 0x72, 0x63, 0x2D, 0x61, 0x75, 0x64, 0x69, 0x6F, 0x2D, 0x6C, 0x65, 0x76, 0x65, 0x6C]

end Sys2Proof.Config
end

