-- ==== Sys2Proof/Machine/State.lean ====
section
/-! DEFINITION. The architectural state of one engine instance (spec/10_state.md R20 to R36), the
reasons a step can stop, and the state after reset (spec/70_reset_and_hazards.md R370, R371).

Three fields of `State` are the MODEL's own and not registers of the engine: the host's pending
inputs, the responses given so far, and the number of resets that have drawn a `SEQ0` (R20: the
command stream and the response stream are not state of the engine; log 1). -/

namespace Sys2Proof.Machine

/-- The contents of one byte-addressed store of R60: (offset, byte) pairs in one canonical form,
offsets strictly rising and no byte listed that an unlisted offset reads as. -/
abbrev Memory := List Host.Cell

/-- What an unlisted offset of a store reads as.
DESIGN CHOICE (log 4): R371 leaves the contents of the packet buffers after reset unspecified and
unobservable; the model reads 0x00. Unsafe for a byte at or beyond the live length, which no command
reads (R25). -/
def Memory.blank : Byte := 0x00#8

/-- PKT, the RTP packet slot (R24). -/
structure Pkt where
  /-- `PKT.VALID`: whether the slot holds a packet. -/
  valid : Bool
  /-- `PKT.BUF`, 1500 bytes. -/
  buf : Memory
  /-- `PKT.LEN`: the live length; `BUF[0:LEN]` is the packet. A natural number (R11). -/
  len : Nat
  /-- `PKT.EKT`: the buffer of the pending EKT tag, `EKT_MAX` bytes. -/
  ekt : Memory
  /-- `PKT.EKTLEN`: the length of the pending EKT tag. -/
  ektLen : Nat
  deriving DecidableEq, Repr

/-- RTCP, the RTCP compound-packet slot (R28). -/
structure Rtcp where
  /-- `RTCP.VALID`: whether the slot holds a packet. -/
  valid : Bool
  /-- `RTCP.BUF`, 1500 bytes: header and body. -/
  buf : Memory
  /-- `RTCP.LEN`: the live length of `RTCP.BUF`. -/
  len : Nat
  /-- `RTCP.ESP`: whether the ESRTCP word is present. -/
  esp : Bool
  /-- `RTCP.ESW`: the ESRTCP word, bit 31 the E-flag, bits 30:0 the SRTCP index (R95). -/
  esw : BitVec 32
  deriving DecidableEq, Repr

/-- KDF, the key derivation unit (R30). -/
structure Kdf where
  /-- `KDF.VALID`: whether a master key and salt are installed. -/
  valid : Bool
  /-- `KDF.KEY`, 32 bytes; the first `KLEN` are meaningful. -/
  key : Bytes
  /-- `KDF.KLEN`: the master key length in bytes. -/
  klen : Nat
  /-- `KDF.SALT`, 14 bytes: the master salt, right-zero-padded. -/
  salt : Bytes
  deriving DecidableEq, Repr

/-- `SES.STATE` (R31, R32): 0 = Fresh, 1 = Keyed. -/
inductive SesState where
  /-- no keys installed -/
  | fresh
  /-- keys installed by `SES.SETSRTP` -/
  | keyed
  deriving DecidableEq, Repr

/-- SES, the session (R31). -/
structure Ses where
  /-- `SES.STATE`. -/
  state : SesState
  /-- `SES.CIPHER`: the IANA SRTP protection profile id, 0x0000 (NONE) while Fresh. -/
  cipher : BitVec 16
  /-- `SES.USEEKT`. -/
  useEkt : Bool
  /-- `SES.REWRITE`. -/
  rewrite : Bool
  /-- `SES.SEQ`: the current outbound sequence number. -/
  seq : BitVec 16
  /-- `SES.ROC`: the rollover counter. -/
  roc : BitVec 32
  /-- `SES.RTPKEY`, 32 bytes; the first `KLEN` are meaningful. -/
  rtpKey : Bytes
  /-- `SES.RTCPKEY`, 32 bytes; the first `KLEN` are meaningful. -/
  rtcpKey : Bytes
  /-- `SES.KLEN`: the derived key length in bytes. -/
  klen : Nat
  /-- `SES.RTPSALT`, 12 bytes. -/
  rtpSalt : Bytes
  /-- `SES.RTCPSALT`, 12 bytes. -/
  rtcpSalt : Bytes
  /-- `SES.EXTMAP[1..14]`: 14 slots; entry `i - 1` is slot `i`, the empty string means unmapped. -/
  extMap : List Bytes
  deriving DecidableEq, Repr

/-- What the host can do to the engine (R20, R375): issue one command descriptor, or assert reset. -/
inductive HostInput where
  /-- A command descriptor on the command port, any byte string. -/
  | command (descriptor : Bytes)
  /-- The reset signal (R370). -/
  | reset
  deriving DecidableEq, Repr

/-- One engine instance and the two streams that join it to its host. -/
structure State where
  /-- the RTP packet slot -/
  pkt : Pkt
  /-- the RTCP compound-packet slot -/
  rtcp : Rtcp
  /-- the key derivation unit -/
  kdf : Kdf
  /-- the session -/
  ses : Ses
  /-- MODEL's own: what the host will present, first input first (R22, R375). -/
  inputs : List HostInput
  /-- MODEL's own: the response descriptors given so far, first response first (R375). -/
  responses : List Bytes
  /-- MODEL's own: how many resets have drawn a `SEQ0` so far. -/
  draws : Nat
  deriving DecidableEq, Repr

/-- Why the engine could stop for good.  It never does: "The engine halts on nothing and has no
'done' state" (R375), a failed command only answers its status and leaves the engine ready (R344),
and no access leaves a live buffer (R11).  So the type has no constructor: no step of this machine
can fault.  Raised by nobody; safe. -/
inductive Fault where
  deriving DecidableEq, Repr

/-- Why the model gives an instruction no meaning.  Every command of R112 has its meaning, so no
arm of `exec` answers this. -/
inductive Refusal where
  /-- Raised by an arm of `exec` for a command that has no meaning in the model yet: by none of
  them.  Safe: a run that meets it stops. -/
  | notModelled (mnemonic : String)
  deriving DecidableEq, Repr

/-- R24 reset column. Buffers: nothing listed (log 4). -/
def Pkt.reset : Pkt :=
  { valid := false, buf := [], len := 0, ekt := [], ektLen := 1 }

/-- R28 reset column. -/
def Rtcp.reset : Rtcp :=
  { valid := false, buf := [], len := 0, esp := false, esw := 0#32 }

/-- R30 reset column.  DESIGN CHOICE (log 5): `KDF.KEY`, unspecified and unobservable there, is
zeros. -/
def Kdf.reset : Kdf :=
  { valid := false, key := List.replicate 32 0x00#8, klen := 0,
    salt := List.replicate Config.msaltLen 0x00#8 }

/-- R31 reset column, with the `SEQ0` that the `n`-th reset draws (R33).  DESIGN CHOICE (log 5): the
keys and salts, unspecified and unused while Fresh, are zeros. -/
def Ses.reset (n : Nat) : Ses :=
  { state := .fresh, cipher := 0x0000#16, useEkt := false, rewrite := false,
    seq := (Config.seq0 n).setWidth 16, roc := 0#32,
    rtpKey := List.replicate 32 0x00#8, rtcpKey := List.replicate 32 0x00#8, klen := 0,
    rtpSalt := List.replicate Config.saltLen 0x00#8,
    rtcpSalt := List.replicate Config.saltLen 0x00#8,
    extMap := List.replicate 14 [] }

/-- The machine right after its first reset (R370, R371): every register at the value of its reset
column, no input presented yet and no response given. -/
def State.reset : State :=
  { pkt := Pkt.reset, rtcp := Rtcp.reset, kdf := Kdf.reset, ses := Ses.reset 0,
    inputs := [], responses := [], draws := 1 }

end Sys2Proof.Machine
end

