-- ==== Sys2Proof/Machine/Flags.lean ====
section
/-! DEFINITION. Status codes (spec/60_exceptions.md R340).

The engine has no condition codes and no sticky error flag (spec/10_state.md R23): the only
"flag" a command computes is the status byte of its response, which is not stored. -/

namespace Sys2Proof.Machine

/-- R340: how a command can fail.  Success is the byte `okCode` and has no kind. -/
inductive Status where
  /-- "Any field/payload/pad set would exceed MTU" -/
  | sizeOverflow
  /-- R341: a value, a byte string's size or a layout that does not fit -/
  | invalidField
  /-- "Unknown EKT command, EKT length ≥ buffer length" -/
  | malformedEkt
  /-- "Cipher id not in supported set" -/
  | unsupportedCipher
  /-- "GCM Open tag verification fails" -/
  | authFailure
  /-- "2-byte header extension form, multi-element GenExt" -/
  | notImplemented
  /-- R342: an undecodable descriptor, or a command whose packet, key or state is not there -/
  | illegalCommand
  deriving DecidableEq, Repr

/-- R340: the status byte of `OK`. -/
def okCode : Byte := 0x00#8

/-- R340: the status byte of a failure. -/
def Status.code : Status → Byte
  | .sizeOverflow => 0x01#8
  | .invalidField => 0x02#8
  | .malformedEkt => 0x03#8
  | .unsupportedCipher => 0x04#8
  | .authFailure => 0x05#8
  | .notImplemented => 0x06#8
  | .illegalCommand => 0x07#8

end Sys2Proof.Machine
end

