-- ==== Sys2Proof/Machine/Ops.lean ====
section
/-! DEFINITION. The named operations: over the byte-addressed stores, over the state, the host's
inputs and the reset signal, and how a command ends (its one "exception" being a status).

TAKING AN EXCEPTION on this hardware is answering a status other than `OK`: "nothing is saved, no
control is transferred, nothing is returned from" (spec/60_exceptions.md).  `State.raise` is that
one operation; there is no return from it. -/

namespace Sys2Proof.Machine

/-! ## Byte-addressed stores (spec/20_memory.md) -/

/-- R9 `B[i]`: the byte at an offset of a store. -/
def Memory.read : Memory → Nat → Byte
  | [], _ => Memory.blank
  | (a, b) :: m, i => if a = i then b else Memory.read m i

/-- R9 `B[a : a+n]`: the byte string of `n` bytes from offset `a`. -/
def Memory.slice (m : Memory) (a : Nat) : Nat → Bytes
  | 0 => []
  | n + 1 => Memory.read m a :: Memory.slice m (a + 1) n

/-- The pairs a byte string contributes from offset `a` on: the bytes an unlisted offset would not
read as. -/
def Memory.cells : Nat → Bytes → Memory
  | _, [] => []
  | a, b :: bs =>
    if b = Memory.blank then Memory.cells (a + 1) bs else (a, b) :: Memory.cells (a + 1) bs

/-- R9 `B[a : a+len(bs)] <- bs`: overwrite that many bytes from offset `a`, keeping the canonical
form. -/
def Memory.write (m : Memory) (a : Nat) (bs : Bytes) : Memory :=
  m.filter (fun c => decide (c.1 < a)) ++ Memory.cells a bs ++
    m.filter (fun c => decide (a + bs.length ≤ c.1))

/-- R9 `MemRead(B, a, n)`. -/
def Memory.readBE (m : Memory) (a n : Nat) : Nat := beNat (Memory.slice m a n)

/-- The canonical form of a store: offsets strictly rising, no byte listed that an unlisted offset
reads as. -/
abbrev Memory.wf (m : Memory) : Prop :=
  m.Pairwise (fun c d => c.1 < d.1) ∧ ∀ c ∈ m, c.2 ≠ Memory.blank

/-- Every listed offset lies below a capacity. -/
abbrev Memory.within (m : Memory) (size : Nat) : Prop := ∀ c ∈ m, c.1 < size

/-- R9 `S xor T`: bytewise exclusive-or (as long as the shorter string). -/
def xorBytes (s t : Bytes) : Bytes := List.zipWith (fun a b => a ^^^ b) s t

/-- R9 `zeros(n)`. -/
def zeros (n : Nat) : Bytes := List.replicate n 0x00#8

/-- `R[0 : len(bs)] <- bs` for a byte-string register of fixed size: later bytes stay. -/
def overwrite (reg bs : Bytes) : Bytes := bs ++ reg.drop bs.length

/-! ## Units -/

/-- `PKT.BUF[a : a+len(bs)] <- bs`. -/
def Pkt.write (p : Pkt) (a : Nat) (bs : Bytes) : Pkt := { p with buf := Memory.write p.buf a bs }

/-- `PKT.LEN <- n`. -/
def Pkt.setLen (p : Pkt) (n : Nat) : Pkt := { p with len := n }

/-- `PKT.EKT <- tag ; PKT.EKTLEN <- len(tag)`. -/
def Pkt.setEkt (p : Pkt) (tag : Bytes) : Pkt :=
  { p with ekt := Memory.write p.ekt 0 tag, ektLen := tag.length }

/-- `BUF[0 : len(data)] <- data ; LEN <- len(data) ; VALID <- 1` of the PKT slot. -/
def Pkt.load (p : Pkt) (data : Bytes) : Pkt :=
  { p with valid := true, buf := Memory.write p.buf 0 data, len := data.length }

/-- `RTCP.BUF[a : a+len(bs)] <- bs`. -/
def Rtcp.write (r : Rtcp) (a : Nat) (bs : Bytes) : Rtcp := { r with buf := Memory.write r.buf a bs }

/-- `RTCP.LEN <- n`. -/
def Rtcp.setLen (r : Rtcp) (n : Nat) : Rtcp := { r with len := n }

/-- `RTCP.ESW <- w ; RTCP.ESP <- 1`. -/
def Rtcp.setEsw (r : Rtcp) (w : BitVec 32) : Rtcp := { r with esw := w, esp := true }

/-- `SES.SEQ <- seq`. -/
def Ses.setSeq (e : Ses) (seq : BitVec 16) : Ses := { e with seq := seq }

/-- R12: `SES.SEQ` is incremented modulo 2^16, and `SES.ROC` modulo 2^32 when the new `SES.SEQ` is
0. -/
def Ses.advance (e : Ses) : Ses :=
  { e with seq := e.seq + 1#16, roc := if e.seq + 1#16 = 0#16 then e.roc + 1#32 else e.roc }

/-- Replace the PKT unit. -/
def State.withPkt (s : State) (p : Pkt) : State := { s with pkt := p }

/-- Replace the RTCP unit. -/
def State.withRtcp (s : State) (r : Rtcp) : State := { s with rtcp := r }

/-- Replace the KDF unit. -/
def State.withKdf (s : State) (k : Kdf) : State := { s with kdf := k }

/-- Replace the SES unit. -/
def State.withSes (s : State) (e : Ses) : State := { s with ses := e }

/-! ## Responses (spec/30_encoding.md R106, spec/60_exceptions.md R340, R343) -/

/-- Emit one response descriptor. -/
def State.respond (s : State) (r : Bytes) : State := { s with responses := s.responses ++ [r] }

/-- R9 `raise K`, R106, R343: the command ends with a status other than `OK`; the response is that
one byte and no register or buffer changes.  This is the engine's only exception entry. -/
def State.raise (s : State) (k : Status) : State := s.respond [k.code]

/-- R9 `return (v1, ..., vk)`, R106: the command ends with `OK`; the results follow the status. -/
def State.reply (s : State) (results : List Operand) : State :=
  s.respond (okCode :: encodeOperands results)

/-- What a command's rule yields: the status it raises, or the state it leaves and its results. -/
abbrev Result := Except Status (State × List Operand)

/-- R343: a command performed in `s`: on `raise` nothing but the response, else what it wrote and
its results.  A command always completes: the host reads the status and goes on (R344). -/
def perform (s : State) (r : Result) : Host.Outcome State Fault Refusal :=
  match r with
  | .error k => .next (s.raise k)
  | .ok (t, results) => .next (t.reply results)

/-! ## Common preconditions (R149, R225) -/

/-- R149: an `RTP.*` command that only reads: `IllegalCommand` on an empty slot, else its results. -/
def State.readPkt (s : State) (f : Pkt → Except Status (List Operand)) : Result :=
  if s.pkt.valid then (f s.pkt).map fun rs => (s, rs) else .error .illegalCommand

/-- R149: an `RTP.*` command that writes the PKT unit and returns `()`. -/
def State.editPkt (s : State) (f : Pkt → Except Status Pkt) : Result :=
  if s.pkt.valid then (f s.pkt).map fun p => (s.withPkt p, []) else .error .illegalCommand

/-- R225: an `RTCP.*` command that only reads. -/
def State.readRtcp (s : State) (f : Rtcp → Except Status (List Operand)) : Result :=
  if s.rtcp.valid then (f s.rtcp).map fun rs => (s, rs) else .error .illegalCommand

/-- R225: an `RTCP.*` command that writes the RTCP unit and returns `()`. -/
def State.editRtcp (s : State) (f : Rtcp → Except Status Rtcp) : Result :=
  if s.rtcp.valid then (f s.rtcp).map fun r => (s.withRtcp r, []) else .error .illegalCommand

/-! ## The host's inputs and the reset signal (R22, R370, R375) -/

/-- The next input the host presents, and the state without it. -/
def State.takeInput (s : State) : Option (HostInput × State) :=
  match s.inputs with
  | [] => none
  | x :: rest => some (x, { s with inputs := rest })

/-- R370: reset puts every register of the instance at its reset value and draws a fresh `SEQ0`; it
gives no response and leaves the host's streams as they are. -/
def State.resetSignal (s : State) : State :=
  { s with pkt := Pkt.reset, rtcp := Rtcp.reset, kdf := Kdf.reset, ses := Ses.reset s.draws,
           draws := s.draws + 1 }

/-- R107, R342 cause 1: a descriptor that does not decode is answered `IllegalCommand`. -/
def State.refuseDescriptor (s : State) : State := s.raise .illegalCommand

end Sys2Proof.Machine
end

