-- ==== Sys2Proof/Machine/Aes.lean ====
section
/-! DEFINITION. AES and counter mode (spec/49_crypto_primitives.md R310 to R318).

The spec takes these from general knowledge (93_implementation_defined.md G1) and ties them to the
source's vectors; the model follows the spec's text.

A block is a 128-bit number, its byte 0 the most significant (R310); inside a round it is the list
of its 16 bytes, byte `4c + r` being row `r` of column `c`. -/

namespace Sys2Proof.Machine

/-- R310: a block, read as a big-endian number. -/
abbrev Block := BitVec 128

/-- The block whose big-endian bytes are given. -/
def blockOfBytes (bs : Bytes) : Block := BitVec.ofNat 128 (beNat bs)

/-- The 16 bytes of a block. -/
def bytesOfBlock (b : Block) : Bytes := beBytes 16 b.toNat

/-- R311 `xtime`: multiplication by 2 in GF(2^8). -/
def xtime (a : Byte) : Byte := (a <<< 1) ^^^ (if a.getLsbD 7 then 0x1B#8 else 0x00#8)

/-- R312: the S-box, row = high nibble, column = low nibble. -/
def sboxRows : List (List Byte) :=
  [
   [0x63, 0x7c, 0x77, 0x7b, 0xf2, 0x6b, 0x6f, 0xc5, 0x30, 0x01, 0x67, 0x2b, 0xfe, 0xd7, 0xab, 0x76],
   [0xca, 0x82, 0xc9, 0x7d, 0xfa, 0x59, 0x47, 0xf0, 0xad, 0xd4, 0xa2, 0xaf, 0x9c, 0xa4, 0x72, 0xc0],
   [0xb7, 0xfd, 0x93, 0x26, 0x36, 0x3f, 0xf7, 0xcc, 0x34, 0xa5, 0xe5, 0xf1, 0x71, 0xd8, 0x31, 0x15],
   [0x04, 0xc7, 0x23, 0xc3, 0x18, 0x96, 0x05, 0x9a, 0x07, 0x12, 0x80, 0xe2, 0xeb, 0x27, 0xb2, 0x75],
   [0x09, 0x83, 0x2c, 0x1a, 0x1b, 0x6e, 0x5a, 0xa0, 0x52, 0x3b, 0xd6, 0xb3, 0x29, 0xe3, 0x2f, 0x84],
   [0x53, 0xd1, 0x00, 0xed, 0x20, 0xfc, 0xb1, 0x5b, 0x6a, 0xcb, 0xbe, 0x39, 0x4a, 0x4c, 0x58, 0xcf],
   [0xd0, 0xef, 0xaa, 0xfb, 0x43, 0x4d, 0x33, 0x85, 0x45, 0xf9, 0x02, 0x7f, 0x50, 0x3c, 0x9f, 0xa8],
   [0x51, 0xa3, 0x40, 0x8f, 0x92, 0x9d, 0x38, 0xf5, 0xbc, 0xb6, 0xda, 0x21, 0x10, 0xff, 0xf3, 0xd2],
   [0xcd, 0x0c, 0x13, 0xec, 0x5f, 0x97, 0x44, 0x17, 0xc4, 0xa7, 0x7e, 0x3d, 0x64, 0x5d, 0x19, 0x73],
   [0x60, 0x81, 0x4f, 0xdc, 0x22, 0x2a, 0x90, 0x88, 0x46, 0xee, 0xb8, 0x14, 0xde, 0x5e, 0x0b, 0xdb],
   [0xe0, 0x32, 0x3a, 0x0a, 0x49, 0x06, 0x24, 0x5c, 0xc2, 0xd3, 0xac, 0x62, 0x91, 0x95, 0xe4, 0x79],
   [0xe7, 0xc8, 0x37, 0x6d, 0x8d, 0xd5, 0x4e, 0xa9, 0x6c, 0x56, 0xf4, 0xea, 0x65, 0x7a, 0xae, 0x08],
   [0xba, 0x78, 0x25, 0x2e, 0x1c, 0xa6, 0xb4, 0xc6, 0xe8, 0xdd, 0x74, 0x1f, 0x4b, 0xbd, 0x8b, 0x8a],
   [0x70, 0x3e, 0xb5, 0x66, 0x48, 0x03, 0xf6, 0x0e, 0x61, 0x35, 0x57, 0xb9, 0x86, 0xc1, 0x1d, 0x9e],
   [0xe1, 0xf8, 0x98, 0x11, 0x69, 0xd9, 0x8e, 0x94, 0x9b, 0x1e, 0x87, 0xe9, 0xce, 0x55, 0x28, 0xdf],
   [0x8c, 0xa1, 0x89, 0x0d, 0xbf, 0xe6, 0x42, 0x68, 0x41, 0x99, 0x2d, 0x0f, 0xb0, 0x54, 0xbb, 0x16]
  ]

/-- R312 `SBOX[a]`. -/
def sbox (a : Byte) : Byte :=
  (sboxRows.getD (a.toNat / 16) []).getD (a.toNat % 16) 0x00#8

/-! ## Key expansion (R313) -/

/-- R313 RotWord on a schedule word `t[0] t[1] t[2] t[3]`. -/
def rotWord (t : BitVec 32) : BitVec 32 := t.extractLsb' 0 24 ++ t.extractLsb' 24 8

/-- R313 SubWord. -/
def subWord (t : BitVec 32) : BitVec 32 :=
  sbox (t.extractLsb' 24 8) ++ sbox (t.extractLsb' 16 8) ++ sbox (t.extractLsb' 8 8) ++
    sbox (t.extractLsb' 0 8)

/-- R313: the word `t` that is combined with `w[i-Nk]`, from `w[i-1]` and the round constant. -/
def scheduleCore (nk i : Nat) (rc : Byte) (prev : BitVec 32) : BitVec 32 :=
  if i % nk = 0 then subWord (rotWord prev) ^^^ (rc ++ 0#24)
  else if nk = 8 ∧ i % nk = 4 then subWord prev
  else prev

/-- R313: `n` further words from index `i`; `ws` holds the words so far, newest first. -/
def expandKey (nk : Nat) : Nat → Nat → Byte → List (BitVec 32) → List (BitVec 32)
  | 0, _, _, ws => ws.reverse
  | n + 1, i, rc, ws =>
    expandKey nk n (i + 1) (if i % nk = 0 then xtime rc else rc)
      ((ws.getD (nk - 1) 0#32 ^^^ scheduleCore nk i rc (ws.getD 0 0#32)) :: ws)

/-- `n` four-byte words of a byte string. -/
def words32 : Nat → Bytes → List (BitVec 32)
  | 0, _ => []
  | n + 1, bs => BitVec.ofNat 32 (beNat (bs.take 4)) :: words32 n (bs.drop 4)

/-- Round keys: four schedule words each, as bytes. -/
def roundKeysOf : List (BitVec 32) → List Bytes
  | a :: b :: c :: d :: ws =>
    (beBytes 4 a.toNat ++ beBytes 4 b.toNat ++ beBytes 4 c.toNat ++ beBytes 4 d.toNat) ::
      roundKeysOf ws
  | _ => []

/-- R313: the `Nr + 1` round keys of a 16- or 32-byte key. -/
def roundKeys (key : Bytes) : List Bytes :=
  let nk := key.length / 4
  roundKeysOf (expandKey nk (4 * (nk + 7) - nk) nk 0x01#8 (words32 nk key).reverse)

/-! ## The cipher (R314) -/

/-- R314 SubBytes. -/
def subBytes (s : Bytes) : Bytes := s.map sbox

/-- R314 ShiftRows: `S'[4c + row] <- S[4*((c + row) mod 4) + row]`. -/
def shiftRows (s : Bytes) : Bytes :=
  (List.range 16).map fun j => s.getD (4 * ((j / 4 + j % 4) % 4) + j % 4) 0x00#8

/-- R314 MixColumns, column by column. -/
def mixColumns : Bytes → Bytes
  | a0 :: a1 :: a2 :: a3 :: s =>
    (xtime a0 ^^^ (xtime a1 ^^^ a1) ^^^ a2 ^^^ a3) ::
    (a0 ^^^ xtime a1 ^^^ (xtime a2 ^^^ a2) ^^^ a3) ::
    (a0 ^^^ a1 ^^^ xtime a2 ^^^ (xtime a3 ^^^ a3)) ::
    ((xtime a0 ^^^ a0) ^^^ a1 ^^^ a2 ^^^ xtime a3) :: mixColumns s
  | _ => []

/-- R314: rounds 1 to Nr; the last has no MixColumns. -/
def aesRounds : List Bytes → Bytes → Bytes
  | [], s => s
  | [k], s => xorBytes (shiftRows (subBytes s)) k
  | k :: ks, s => aesRounds ks (xorBytes (mixColumns (shiftRows (subBytes s))) k)

/-- R314 `AES_ENC` under an expanded key. -/
def aesWithRoundKeys : List Bytes → Block → Block
  | [], b => b
  | k :: ks, b => blockOfBytes (aesRounds ks (xorBytes (bytesOfBlock b) k))

/-- R314 `AES_ENC(K, B)`. -/
def aesEnc (key : Bytes) (b : Block) : Block := aesWithRoundKeys (roundKeys key) b

/-! ## Counter mode (R318) -/

/-- The key stream of `n` blocks: `AES_ENC(K, B)`, then the same of `next B`, and so on. -/
def keyStream (next : Block → Block) (key : Bytes) : Nat → Block → Bytes
  | 0, _ => []
  | n + 1, b => bytesOfBlock (aesEnc key b) ++ keyStream next key n (next b)

/-- Blocks needed for `n` bytes. -/
def blockCount (n : Nat) : Nat := (n + 15) / 16

/-- R318 `CTR(K, iv, n)`: the whole 128-bit block is the counter. -/
def ctr (key : Bytes) (iv : Block) (n : Nat) : Bytes :=
  (keyStream (fun b => b + 1#128) key (blockCount n) iv).take n

end Sys2Proof.Machine
end

