-- ==== Sys2Proof/Machine/Gcm.lean ====
section
/-! DEFINITION. GHASH and AES-GCM with 12-byte IVs and 16-byte tags
(spec/49_crypto_primitives.md R320 to R326), from general knowledge as the spec says (G1). -/

namespace Sys2Proof.Machine

/-- R320: the reduction constant `e1 00 .. 00`. -/
def gcmR : Block := 0xE1#128 <<< 120

/-- R320: the steps for bits `128 - n .. 127` of `X`. Bit `i` of a block counts from its most
significant bit (R310). -/
def gcmMulLoop (x : Block) : Nat → Block → Block → Block
  | 0, z, _ => z
  | n + 1, z, v =>
    gcmMulLoop x n (if x.getMsbD (127 - n) then z ^^^ v else z)
      (if v.getLsbD 0 then (v >>> 1) ^^^ gcmR else v >>> 1)

/-- R320 `X • Y` in GF(2^128). -/
def gcmMul (x y : Block) : Block := gcmMulLoop x 128 0#128 y

/-- R321: `Y(i)` from `Y(i-1)` over `n` blocks of `X`. -/
def ghashLoop (h : Block) : Nat → Block → Bytes → Block
  | 0, y, _ => y
  | n + 1, y, xs => ghashLoop h n (gcmMul (y ^^^ blockOfBytes (xs.take 16)) h) (xs.drop 16)

/-- R321 `GHASH(H, X)`, for a byte string of whole blocks. -/
def ghash (h : Block) (xs : Bytes) : Block := ghashLoop h (xs.length / 16) 0#128 xs

/-- R322 `inc32`: only the last four bytes count. -/
def inc32 (b : Block) : Block := b.extractLsb' 32 96 ++ (b.extractLsb' 0 32 + 1#32)

/-- R322 `GCTR(K, ICB, X)`: `X` against the key stream of `ICB, inc32(ICB), ...`. -/
def gctr (key : Bytes) (icb : Block) (xs : Bytes) : Bytes :=
  xorBytes xs (keyStream inc32 key (blockCount xs.length) icb)

/-- R323 `pad16`. -/
def pad16 (xs : Bytes) : Bytes := xs ++ zeros ((16 - xs.length % 16) % 16)

/-- R323 `LENBLK(A, C)`. -/
def lenBlock (a c : Bytes) : Bytes := beBytes 8 (8 * a.length) ++ beBytes 8 (8 * c.length)

/-- R324 `J0 = IV ‖ 00 00 00 01`. -/
def gcmJ0 (iv : Bytes) : Block := blockOfBytes (iv ++ [0x00#8, 0x00#8, 0x00#8, 0x01#8])

/-- R324 `TAG(K, IV, A, C)`. -/
def gcmTag (key iv a c : Bytes) : Bytes :=
  gctr key (gcmJ0 iv)
    (bytesOfBlock (ghash (aesEnc key 0#128) (pad16 a ++ pad16 c ++ lenBlock a c)))

/-- R325 `GCM_SEAL(K, IV, A, P) = (C, T)`. -/
def gcmSeal (key iv a p : Bytes) : Bytes × Bytes :=
  let c := gctr key (inc32 (gcmJ0 iv)) p
  (c, gcmTag key iv a c)

/-- R326 `GCM_OPEN(K, IV, A, C, T)`: no plaintext unless all 128 bits of the tag agree. -/
def gcmOpen (key iv a c t : Bytes) : Option Bytes :=
  if gcmTag key iv a c = t then some (gctr key (inc32 (gcmJ0 iv)) c) else none

end Sys2Proof.Machine
end

