-- ==== Sys2Proof/Machine/Operands.lean ====
section
/-! DEFINITION. The views of packets and registers that commands work on: header fields, the layout
functions and their checks, key and salt checks, the audio-level id.

The logical fields of a packet are not registers: they are read from the live buffer every time
(spec/10_state.md R26, spec/41_rtp_sections.md R160). -/

namespace Sys2Proof.Machine

/-! ## RTP fixed header (spec/30_encoding.md R80) -/

/-- `BUF[i]` of the PKT slot. -/
def Pkt.octet (p : Pkt) (i : Nat) : Byte := Memory.read p.buf i

/-- `PKT.BUF[a : a+n]`. -/
def Pkt.slice (p : Pkt) (a n : Nat) : Bytes := Memory.slice p.buf a n

/-- `BUF[0:LEN]`, the packet. -/
def Pkt.bytes (p : Pkt) : Bytes := p.slice 0 p.len

/-- `PKT.EKT`: the pending EKT tag, `PKT.EKTLEN` bytes. -/
def Pkt.ektTag (p : Pkt) : Bytes := Memory.slice p.ekt 0 p.ektLen

/-- P: `BUF[0][5:5]`. -/
def Pkt.p (p : Pkt) : Bool := (p.octet 0).getLsbD 5

/-- X: `BUF[0][4:4]`. -/
def Pkt.x (p : Pkt) : Bool := (p.octet 0).getLsbD 4

/-- CC: `BUF[0][3:0]`. -/
def Pkt.cc (p : Pkt) : BitVec 8 := p.octet 0 &&& 0x0F#8

/-- M: `BUF[1][7:7]`. -/
def Pkt.m (p : Pkt) : Bool := (p.octet 1).getLsbD 7

/-- PT: `BUF[1][6:0]`. -/
def Pkt.pt (p : Pkt) : BitVec 8 := p.octet 1 &&& 0x7F#8

/-- SEQ: `MemRead(BUF, 2, 2)`. -/
def Pkt.seq (p : Pkt) : BitVec 16 := BitVec.ofNat 16 (Memory.readBE p.buf 2 2)

/-- TS: `MemRead(BUF, 4, 4)`. -/
def Pkt.ts (p : Pkt) : BitVec 32 := BitVec.ofNat 32 (Memory.readBE p.buf 4 4)

/-- SSRC: `MemRead(BUF, 8, 4)`. -/
def Pkt.ssrc (p : Pkt) : BitVec 32 := BitVec.ofNat 32 (Memory.readBE p.buf 8 4)

/-- A one-bit field's bit, moved to bit `k` of an octet. -/
def bitAt (b : Bool) (k : Nat) : Byte := if b then 1#8 <<< k else 0#8

/-! ## Layout (R160) and its checks (R161) -/

/-- R160 `ext_off`. -/
def Pkt.extOff (p : Pkt) : Nat := 12 + 4 * p.cc.toNat

/-- R160 `ext_words`; used only when X = 1. -/
def Pkt.extWords (p : Pkt) : Nat := Memory.readBE p.buf (p.extOff + 2) 2

/-- R82: the defined-by-profile id; used only when X = 1. -/
def Pkt.profile (p : Pkt) : BitVec 16 := BitVec.ofNat 16 (Memory.readBE p.buf p.extOff 2)

/-- R160 `pay_off`. -/
def Pkt.payOff (p : Pkt) : Nat :=
  if p.x then p.extOff + 4 + 4 * p.extWords else p.extOff

/-- R160 `pad_len`. -/
def Pkt.padLen (p : Pkt) : Nat := if p.p then (p.octet (p.len - 1)).toNat else 0

/-- R160 `pay_end`: an integer, may be negative. -/
def Pkt.payEnd (p : Pkt) : Int := (p.len : Int) - (p.padLen : Int)

/-- R161 `CHK_CSRC` raises. -/
def Pkt.badCsrc (p : Pkt) : Bool := decide (p.len < p.extOff)

/-- R161 `CHK_EXTH` raises: the 4-byte block header is unreadable (log 6 on 92_eei_decisions D9). -/
def Pkt.badExtHdr (p : Pkt) : Bool := p.x && decide (p.len < p.extOff + 4)

/-- R161 `CHK_PAY` raises. -/
def Pkt.badPay (p : Pkt) : Bool := p.badExtHdr || decide (p.len < p.payOff)

/-- The data part of the header-extension block, `BUF[ext_off+4 : pay_off]` (R82). -/
def Pkt.extData (p : Pkt) : Bytes := p.slice (p.extOff + 4) (p.payOff - (p.extOff + 4))

/-! ## RTCP header (R94) and ESRTCP word (R95) -/

/-- `RTCP.BUF[a : a+n]`. -/
def Rtcp.slice (r : Rtcp) (a n : Nat) : Bytes := Memory.slice r.buf a n

/-- PT: `BUF[1]`, all 8 bits. -/
def Rtcp.pt (r : Rtcp) : BitVec 8 := Memory.read r.buf 1

/-- The length field: 32-bit words minus one. -/
def Rtcp.lenWords (r : Rtcp) : BitVec 16 := BitVec.ofNat 16 (Memory.readBE r.buf 2 2)

/-- R13: `(length + 1) * 4`, computed without wrap. -/
def Rtcp.lenBytes (r : Rtcp) : BitVec 32 := BitVec.ofNat 32 ((Memory.readBE r.buf 2 2 + 1) * 4)

/-- Sender SSRC. -/
def Rtcp.ssrc (r : Rtcp) : BitVec 32 := BitVec.ofNat 32 (Memory.readBE r.buf 4 4)

/-- SRTCP index: the low 31 bits of `ESW`. -/
def Rtcp.index (r : Rtcp) : BitVec 32 := r.esw &&& 0x7FFFFFFF#32

/-- The E-flag: bit 31 of `ESW`. -/
def Rtcp.e (r : Rtcp) : Bool := r.esw.getLsbD 31

/-- R28: `LEN + 4*ESP`, what `RTCP.STORE` returns in bytes. -/
def Rtcp.wireLen (r : Rtcp) : Nat := r.len + if r.esp then Config.esrtcpLen else 0

/-! ## Keys, ids -/

/-- R241, R260: a key has 16 or 32 bytes. -/
def badKeyLength (key : Bytes) : Bool := key.length != 16 && key.length != 32

/-- R260 `CHK_KS` raises. -/
def badKeySalt (key salt : Bytes) : Bool := badKeyLength key || salt.length != Config.saltLen

/-- R101, R245: the session key length of a supported cipher, none for every other id. -/
def cipherKeyLength (cipher : BitVec 16) : Option Nat :=
  if cipher = 0x0007#16 then some 16 else if cipher = 0x0008#16 then some 32 else none

/-- R182, R282: local ids of the one-byte form are 1..14. -/
def badExtId (id : BitVec 8) : Bool := decide (id.toNat < 1) || decide (14 < id.toNat)

/-- R184 `VOL_ID`: the smallest slot that holds the audio-level URI. -/
def Ses.volId (e : Ses) : Option (BitVec 8) :=
  (e.extMap.findIdx? (fun uri => uri == Config.audioLevelUri)).map fun k => BitVec.ofNat 8 (k + 1)

/-- `SES.RTPKEY[0 : SES.KLEN]`. -/
def Ses.liveRtpKey (e : Ses) : Bytes := e.rtpKey.take e.klen

/-- `SES.RTCPKEY[0 : SES.KLEN]`. -/
def Ses.liveRtcpKey (e : Ses) : Bytes := e.rtcpKey.take e.klen

end Sys2Proof.Machine
end

