-- ==== Sys2Proof/Machine/Rtcp.lean ====
section
/-! DEFINITION. The RTCP compound-packet slot and its accessor commands
(spec/44_rtcp.md R210 to R226). -/

namespace Sys2Proof.Machine

/-! ## Loading and storing -/

/-- R211: a plain compound packet; only the length is checked. -/
def Rtcp.load (r : Rtcp) (data : Bytes) : Except Status Rtcp :=
  if Config.mtu < data.length then .error .sizeOverflow
  else if data.length < Config.rtcpHdr then .error .invalidField
  else .ok { valid := true, buf := Memory.write r.buf 0 data, len := data.length,
             esp := false, esw := 0#32 }

/-- R211 `RTCP.LOAD`. -/
def execRtcpLoad (data : Bytes) (s : State) : Host.Outcome State Fault Refusal :=
  perform s ((s.rtcp.load data).map fun r => (s.withRtcp r, []))

/-- R212: an SRTCP wire buffer; the last four bytes are the ESRTCP word. -/
def Rtcp.loads (r : Rtcp) (data : Bytes) : Except Status Rtcp :=
  if Config.mtu < data.length then .error .sizeOverflow
  else if data.length < Config.rtcpHdr + Config.esrtcpLen then .error .invalidField
  else
    let n := data.length - Config.esrtcpLen
    .ok { valid := true, buf := Memory.write r.buf 0 (data.take n), len := n,
          esp := true, esw := BitVec.ofNat 32 (beNat (data.drop n)) }

/-- R212 `RTCP.LOADS`. -/
def execRtcpLoads (data : Bytes) (s : State) : Host.Outcome State Fault Refusal :=
  perform s ((s.rtcp.loads data).map fun r => (s.withRtcp r, []))

/-- R213: the buffer, and the ESRTCP word after it when it is present. -/
def Rtcp.wire (r : Rtcp) : Bytes :=
  if r.esp then r.slice 0 r.len ++ beBytes 4 r.esw.toNat else r.slice 0 r.len

/-- R213 `RTCP.STORE`. -/
def execRtcpStore (s : State) : Host.Outcome State Fault Refusal :=
  perform s (s.readRtcp fun r => .ok [.bytes r.wire])

/-! ## Getters -/

/-- R214 `RTCP.GETPT`. -/
def execRtcpGetPt (s : State) : Host.Outcome State Fault Refusal :=
  perform s (s.readRtcp fun r => .ok [.u8 r.pt])

/-- R215 `RTCP.GETLENW`. -/
def execRtcpGetLenW (s : State) : Host.Outcome State Fault Refusal :=
  perform s (s.readRtcp fun r => .ok [.u16 r.lenWords])

/-- R216 `RTCP.GETLENB`: from the field, not from `LEN`. -/
def execRtcpGetLenB (s : State) : Host.Outcome State Fault Refusal :=
  perform s (s.readRtcp fun r => .ok [.u32 r.lenBytes])

/-- R217 `RTCP.GETSSRC`. -/
def execRtcpGetSsrc (s : State) : Host.Outcome State Fault Refusal :=
  perform s (s.readRtcp fun r => .ok [.u32 r.ssrc])

/-- R218 `RTCP.GETINDEX`. -/
def execRtcpGetIndex (s : State) : Host.Outcome State Fault Refusal :=
  perform s (s.readRtcp fun r => .ok [.u32 r.index])

/-- R219 `RTCP.GETE`. -/
def execRtcpGetE (s : State) : Host.Outcome State Fault Refusal :=
  perform s (s.readRtcp fun r => .ok [.bool r.e])

/-! ## Setters -/

/-- R220 `RTCP.SETPT`: `BUF[1] <- pt`. -/
def execRtcpSetPt (pt : BitVec 8) (s : State) : Host.Outcome State Fault Refusal :=
  perform s (s.editRtcp fun r => .ok (r.write 1 [pt]))

/-- R221 `RTCP.SETLENW`: the field only. -/
def execRtcpSetLenW (words : BitVec 16) (s : State) : Host.Outcome State Fault Refusal :=
  perform s (s.editRtcp fun r => .ok (r.write 2 (beBytes 2 words.toNat)))

/-- R222 `RTCP.SETSSRC`. -/
def execRtcpSetSsrc (ssrc : BitVec 32) (s : State) : Host.Outcome State Fault Refusal :=
  perform s (s.editRtcp fun r => .ok (r.write 4 (beBytes 4 ssrc.toNat)))

/-- R223, R224: making the ESRTCP word present would break `LEN + 4*ESP <= MTU` (C11). -/
def Rtcp.noRoomForEsw (r : Rtcp) : Bool := !r.esp && decide (Config.mtu < r.len + Config.esrtcpLen)

/-- R223: the E bit is kept. -/
def Rtcp.setIndex (r : Rtcp) (index : BitVec 32) : Except Status Rtcp :=
  if 0x7FFFFFFF < index.toNat then .error .invalidField
  else if r.noRoomForEsw then .error .sizeOverflow
  else .ok (r.setEsw ((r.esw &&& 0x80000000#32) ||| index))

/-- R223 `RTCP.SETINDEX`. -/
def execRtcpSetIndex (index : BitVec 32) (s : State) : Host.Outcome State Fault Refusal :=
  perform s (s.editRtcp fun r => r.setIndex index)

/-- R224: the index is kept. -/
def Rtcp.setE (r : Rtcp) (e : Bool) : Except Status Rtcp :=
  if r.noRoomForEsw then .error .sizeOverflow
  else .ok (r.setEsw ((r.esw &&& 0x7FFFFFFF#32) ||| (if e then 0x80000000#32 else 0#32)))

/-- R224 `RTCP.SETE`. -/
def execRtcpSetE (e : Bool) (s : State) : Host.Outcome State Fault Refusal :=
  perform s (s.editRtcp fun r => r.setE e)

end Sys2Proof.Machine
end

