-- ==== Sys2Proof/Machine/AeadRtcp.lean ====
section
/-! DEFINITION. AES-GCM for RTCP (spec/47_aead_rtcp.md R270 to R274). -/

namespace Sys2Proof.Machine

/-- R270 `RTCP_IV(w, salt)`. -/
def Rtcp.gcmIv (r : Rtcp) (w : BitVec 32) (salt : Bytes) : Bytes :=
  xorBytes (zeros 2 ++ r.slice 4 4 ++ zeros 2 ++ beBytes 4 (w &&& 0x7FFFFFFF#32).toNat) salt

/-- R270 `RTCP_AAD(w)`. -/
def Rtcp.gcmAad (r : Rtcp) (w : BitVec 32) : Bytes :=
  r.slice 0 8 ++ beBytes 4 (w ||| 0x80000000#32).toNat

/-- R272: the body is encrypted in place, the tag appended, E set; the index is not advanced
(R271). -/
def Rtcp.encGcm (r : Rtcp) (key salt : Bytes) : Except Status Rtcp :=
  if badKeySalt key salt then .error .invalidField
  else if Config.mtu < r.len + Config.tagLen + Config.esrtcpLen then .error .sizeOverflow
  else
    let w := r.esw ||| 0x80000000#32
    let ct := gcmSeal key (r.gcmIv w salt) (r.gcmAad w) (r.slice 8 (r.len - 8))
    .ok (((r.write 8 (ct.1 ++ ct.2)).setLen (r.len + Config.tagLen)).setEsw w)

/-- R272 `RTCP.ENCGCM`. -/
def execRtcpEncGcm (key salt : Bytes) (s : State) : Host.Outcome State Fault Refusal :=
  perform s (s.editRtcp fun r => r.encGcm key salt)

/-- R273: E must be 1; nothing is written before the tag has been verified. -/
def Rtcp.decGcm (r : Rtcp) (key salt : Bytes) : Except Status Rtcp :=
  if badKeySalt key salt then .error .invalidField
  else if !r.esp || !r.e then .error .invalidField
  else if r.len < 8 + Config.tagLen then .error .authFailure
  else
    let n := r.len - Config.tagLen
    match gcmOpen key (r.gcmIv r.esw salt) (r.gcmAad r.esw) (r.slice 8 (n - 8))
        (r.slice n Config.tagLen) with
    | none => .error .authFailure
    | some plain => .ok ((r.write 8 plain).setLen n)

/-- R273 `RTCP.DECGCM`. -/
def execRtcpDecGcm (key salt : Bytes) (s : State) : Host.Outcome State Fault Refusal :=
  perform s (s.editRtcp fun r => r.decGcm key salt)

end Sys2Proof.Machine
end

