-- ==== Sys2Proof/Machine/RtpFields.lean ====
section
/-! DEFINITION. The RTP packet slot and its fixed-header field commands
(spec/40_rtp_fields.md R130 to R151). -/

namespace Sys2Proof.Machine

/-! ## Creating, loading and storing a packet -/

/-- R130: the slot after `RTP.NEW`.  The EKT tag is the one byte 00 (D31). -/
def Pkt.new (p : Pkt) (pt : BitVec 8) (seq : BitVec 16) (ts ssrc : BitVec 32) (payload : Bytes) :
    Except Status Pkt :=
  if 127 < pt.toNat then .error .invalidField
  else if Config.mtu < 12 + payload.length then .error .sizeOverflow
  else .ok ((p.load ([0x80#8, pt] ++ beBytes 2 seq.toNat ++ beBytes 4 ts.toNat ++
    beBytes 4 ssrc.toNat ++ payload)).setEkt [0x00#8])

/-- R130 `RTP.NEW`. -/
def execRtpNew (pt : BitVec 8) (seq : BitVec 16) (ts ssrc : BitVec 32) (payload : Bytes)
    (s : State) : Host.Outcome State Fault Refusal :=
  perform s ((s.pkt.new pt seq ts ssrc payload).map fun p => (s.withPkt p, []))

/-- R131: the slot after `RTP.LOAD`; nothing but the length is checked (D8). -/
def Pkt.loadWire (p : Pkt) (data : Bytes) : Except Status Pkt :=
  if Config.mtu < data.length then .error .sizeOverflow
  else if data.length < 12 then .error .invalidField
  else .ok ((p.load data).setEkt [0x00#8])

/-- R131 `RTP.LOAD`. -/
def execRtpLoad (data : Bytes) (s : State) : Host.Outcome State Fault Refusal :=
  perform s ((s.pkt.loadWire data).map fun p => (s.withPkt p, []))

/-- R132 `RTP.STORE`. -/
def execRtpStore (s : State) : Host.Outcome State Fault Refusal :=
  perform s (s.readPkt fun p => .ok [.bytes p.bytes])

/-! ## Field getters -/

/-- R133 `RTP.GETP`. -/
def execRtpGetP (s : State) : Host.Outcome State Fault Refusal :=
  perform s (s.readPkt fun p => .ok [.bool p.p])

/-- R134 `RTP.GETX`. -/
def execRtpGetX (s : State) : Host.Outcome State Fault Refusal :=
  perform s (s.readPkt fun p => .ok [.bool p.x])

/-- R135 `RTP.GETCC`. -/
def execRtpGetCc (s : State) : Host.Outcome State Fault Refusal :=
  perform s (s.readPkt fun p => .ok [.u8 p.cc])

/-- R136 `RTP.GETM`: bit 7 only (C5). -/
def execRtpGetM (s : State) : Host.Outcome State Fault Refusal :=
  perform s (s.readPkt fun p => .ok [.bool p.m])

/-- R137 `RTP.GETPT`. -/
def execRtpGetPt (s : State) : Host.Outcome State Fault Refusal :=
  perform s (s.readPkt fun p => .ok [.u8 p.pt])

/-- R138 `RTP.GETSEQ`. -/
def execRtpGetSeq (s : State) : Host.Outcome State Fault Refusal :=
  perform s (s.readPkt fun p => .ok [.u16 p.seq])

/-- R139 `RTP.GETTS`. -/
def execRtpGetTs (s : State) : Host.Outcome State Fault Refusal :=
  perform s (s.readPkt fun p => .ok [.u32 p.ts])

/-- R140 `RTP.GETSSRC`. -/
def execRtpGetSsrc (s : State) : Host.Outcome State Fault Refusal :=
  perform s (s.readPkt fun p => .ok [.u32 p.ssrc])

/-! ## Field setters -/

/-- R141: the write goes to octet 0 (C6). -/
def Pkt.setP (p : Pkt) (b : Bool) : Pkt := p.write 0 [(p.octet 0 &&& 0xDF#8) ||| bitAt b 5]

/-- R142: the write goes to octet 0 (C6). -/
def Pkt.setX (p : Pkt) (b : Bool) : Pkt := p.write 0 [(p.octet 0 &&& 0xEF#8) ||| bitAt b 4]

/-- R143: the count only; no CSRC entry moves. -/
def Pkt.setCc (p : Pkt) (cc : BitVec 8) : Except Status Pkt :=
  if 15 < cc.toNat then .error .invalidField
  else .ok (p.write 0 [(p.octet 0 &&& 0xF0#8) ||| cc])

/-- R144: bit 7 only (C5). -/
def Pkt.setM (p : Pkt) (b : Bool) : Pkt := p.write 1 [(p.octet 1 &&& 0x7F#8) ||| bitAt b 7]

/-- R145: the marker bit is kept; a value above 127 is refused (D12). -/
def Pkt.setPt (p : Pkt) (pt : BitVec 8) : Except Status Pkt :=
  if 127 < pt.toNat then .error .invalidField
  else .ok (p.write 1 [(p.octet 1 &&& 0x80#8) ||| pt])

/-- R146: `MemWrite(BUF, 2, 2, seq)`. -/
def Pkt.setSeq (p : Pkt) (seq : BitVec 16) : Pkt := p.write 2 (beBytes 2 seq.toNat)

/-- R147: `MemWrite(BUF, 4, 4, ts)`. -/
def Pkt.setTs (p : Pkt) (ts : BitVec 32) : Pkt := p.write 4 (beBytes 4 ts.toNat)

/-- R148: `MemWrite(BUF, 8, 4, ssrc)`. -/
def Pkt.setSsrc (p : Pkt) (ssrc : BitVec 32) : Pkt := p.write 8 (beBytes 4 ssrc.toNat)

/-- R141 `RTP.SETP`. -/
def execRtpSetP (b : Bool) (s : State) : Host.Outcome State Fault Refusal :=
  perform s (s.editPkt fun p => .ok (p.setP b))

/-- R142 `RTP.SETX`. -/
def execRtpSetX (b : Bool) (s : State) : Host.Outcome State Fault Refusal :=
  perform s (s.editPkt fun p => .ok (p.setX b))

/-- R143 `RTP.SETCC`. -/
def execRtpSetCc (cc : BitVec 8) (s : State) : Host.Outcome State Fault Refusal :=
  perform s (s.editPkt fun p => p.setCc cc)

/-- R144 `RTP.SETM`. -/
def execRtpSetM (b : Bool) (s : State) : Host.Outcome State Fault Refusal :=
  perform s (s.editPkt fun p => .ok (p.setM b))

/-- R145 `RTP.SETPT`. -/
def execRtpSetPt (pt : BitVec 8) (s : State) : Host.Outcome State Fault Refusal :=
  perform s (s.editPkt fun p => p.setPt pt)

/-- R146 `RTP.SETSEQ`. -/
def execRtpSetSeq (seq : BitVec 16) (s : State) : Host.Outcome State Fault Refusal :=
  perform s (s.editPkt fun p => .ok (p.setSeq seq))

/-- R147 `RTP.SETTS`. -/
def execRtpSetTs (ts : BitVec 32) (s : State) : Host.Outcome State Fault Refusal :=
  perform s (s.editPkt fun p => .ok (p.setTs ts))

/-- R148 `RTP.SETSSRC`. -/
def execRtpSetSsrc (ssrc : BitVec 32) (s : State) : Host.Outcome State Fault Refusal :=
  perform s (s.editPkt fun p => .ok (p.setSsrc ssrc))

end Sys2Proof.Machine
end

