-- ==== Sys2Proof/Machine/AeadRtp.lean ====
section
/-! DEFINITION. AES-GCM for RTP (spec/46_aead_rtp.md R260 to R264). -/

namespace Sys2Proof.Machine

/-- R261 `RTP_IV(roc, salt)`, from the live header. -/
def Pkt.gcmIv (p : Pkt) (roc : BitVec 32) (salt : Bytes) : Bytes :=
  xorBytes (zeros 2 ++ p.slice 8 4 ++ beBytes 4 roc.toNat ++ p.slice 2 2) salt

/-- R262: the plaintext is `BUF[pay_off : LEN]`, padding and OHB included; the tag is appended. -/
def Pkt.encGcm (p : Pkt) (roc : BitVec 32) (key salt : Bytes) : Except Status Pkt :=
  if badKeySalt key salt then .error .invalidField
  else if p.badPay then .error .invalidField
  else if Config.mtu < p.len + Config.tagLen then .error .sizeOverflow
  else
    let off := p.payOff
    let ct := gcmSeal key (p.gcmIv roc salt) (p.slice 0 off) (p.slice off (p.len - off))
    .ok ((p.write off (ct.1 ++ ct.2)).setLen (p.len + Config.tagLen))

/-- R262 `RTP.ENCGCM`. -/
def execRtpEncGcm (roc : BitVec 32) (key salt : Bytes) (s : State) :
    Host.Outcome State Fault Refusal :=
  perform s (s.editPkt fun p => p.encGcm roc key salt)

/-- R263: the buffer is written only after the tag has been verified. -/
def Pkt.decGcm (p : Pkt) (roc : BitVec 32) (key salt : Bytes) : Except Status Pkt :=
  if badKeySalt key salt then .error .invalidField
  else if p.badPay then .error .invalidField
  else if p.len < p.payOff + Config.tagLen then .error .authFailure
  else
    let off := p.payOff
    let n := p.len - Config.tagLen
    match gcmOpen key (p.gcmIv roc salt) (p.slice 0 off) (p.slice off (n - off))
        (p.slice n Config.tagLen) with
    | none => .error .authFailure
    | some plain => .ok ((p.write off plain).setLen n)

/-- R263 `RTP.DECGCM`. -/
def execRtpDecGcm (roc : BitVec 32) (key salt : Bytes) (s : State) :
    Host.Outcome State Fault Refusal :=
  perform s (s.editPkt fun p => p.decGcm roc key salt)

end Sys2Proof.Machine
end

