-- ==== Sys2Proof/Machine/RtpSections.lean ====
section
/-! DEFINITION. RTP section commands: CSRC list, header extension, payload, padding
(spec/41_rtp_sections.md R160 to R169).  A section setter truncates everything after its own
section (R169, C7). -/

namespace Sys2Proof.Machine

/-- R162: CC = n, X = P = 0, V kept (D10). -/
def Pkt.setCsrc (p : Pkt) (list : Bytes) : Except Status Pkt :=
  if list.length % 4 ≠ 0 then .error .illegalCommand
  else if Config.ccMax < list.length / 4 then .error .invalidField
  else if Config.mtu < 12 + 4 * (list.length / 4) then .error .sizeOverflow
  else .ok (((p.write 12 list).write 0
    [(p.octet 0 &&& 0xC0#8) ||| BitVec.ofNat 8 (list.length / 4)]).setLen
      (12 + 4 * (list.length / 4)))

/-- R162 `RTP.SETCSRC`. -/
def execRtpSetCsrc (list : Bytes) (s : State) : Host.Outcome State Fault Refusal :=
  perform s (s.editPkt fun p => p.setCsrc list)

/-- R163: the block replaces everything after `ext_off`; X = 1, P = 0 (D10). -/
def Pkt.setHdrExt (p : Pkt) (profile : BitVec 16) (data : Bytes) : Except Status Pkt :=
  if p.badCsrc then .error .invalidField
  else if data.length % 4 ≠ 0 then .error .invalidField
  else if Config.mtu < p.extOff + 4 + data.length then .error .sizeOverflow
  else .ok (((p.write p.extOff
    (beBytes 2 profile.toNat ++ beBytes 2 (data.length / 4) ++ data)).write 0
      [(p.octet 0 &&& 0xCF#8) ||| 0x10#8]).setLen (p.extOff + 4 + data.length))

/-- R163 `RTP.SETHDREXT`. -/
def execRtpSetHdrExt (profile : BitVec 16) (data : Bytes) (s : State) :
    Host.Outcome State Fault Refusal :=
  perform s (s.editPkt fun p => p.setHdrExt profile data)

/-- R164: P = 0 (D10). -/
def Pkt.setPayload (p : Pkt) (data : Bytes) : Except Status Pkt :=
  if p.badPay then .error .invalidField
  else if Config.mtu < p.payOff + data.length then .error .sizeOverflow
  else .ok (((p.write p.payOff data).write 0 [p.octet 0 &&& 0xDF#8]).setLen
    (p.payOff + data.length))

/-- R164 `RTP.SETPAYLOAD`. -/
def execRtpSetPayload (data : Bytes) (s : State) : Host.Outcome State Fault Refusal :=
  perform s (s.editPkt fun p => p.setPayload data)

/-- R166: the count counts itself, the other padding bytes are zeros (D11); nothing is written when
the length is already aligned; no growth beyond the MTU (C4). -/
def Pkt.setPadding (p : Pkt) (sizeMult : Nat) : Except Status Pkt :=
  if sizeMult = 0 then .error .invalidField
  else if p.len % sizeMult = 0 then .ok p
  else
    let pad := sizeMult - p.len % sizeMult
    if 255 < pad then .error .invalidField
    else if Config.mtu < p.len + pad then .error .sizeOverflow
    else .ok (((p.write p.len (zeros (pad - 1) ++ [BitVec.ofNat 8 pad])).write 0
      [p.octet 0 ||| 0x20#8]).setLen (p.len + pad))

/-- R166 `RTP.SETPADDING`. -/
def execRtpSetPadding (sizeMult : BitVec 16) (s : State) : Host.Outcome State Fault Refusal :=
  perform s (s.editPkt fun p => p.setPadding sizeMult.toNat)

/-- R165: empty when start ≥ end, compared as integers. -/
def Pkt.getPayload (p : Pkt) : Except Status Bytes :=
  if p.badExtHdr then .error .invalidField
  else if p.payEnd ≤ (p.payOff : Int) then .ok []
  else .ok (p.slice p.payOff (p.payEnd.toNat - p.payOff))

/-- R165 `RTP.GETPAYLOAD`. -/
def execRtpGetPayload (s : State) : Host.Outcome State Fault Refusal :=
  perform s (s.readPkt fun p => p.getPayload.map fun d => [.bytes d])

/-- R167: `BUF[12 : ext_off]`. -/
def Pkt.getCsrc (p : Pkt) : Except Status Bytes :=
  if p.badCsrc then .error .invalidField else .ok (p.slice 12 (p.extOff - 12))

/-- R167 `RTP.GETCSRC`. -/
def execRtpGetCsrc (s : State) : Host.Outcome State Fault Refusal :=
  perform s (s.readPkt fun p => p.getCsrc.map fun d => [.bytes d])

/-- R168 `RTP.GETHDREXT`. -/
def execRtpGetHdrExt (s : State) : Host.Outcome State Fault Refusal :=
  perform s (s.readPkt fun p =>
    if p.x = false then .ok [.bool false, .u16 0x0000#16, .bytes []]
    else if p.badPay then .error .invalidField
    else .ok [.bool true, .u16 p.profile, .bytes p.extData])

end Sys2Proof.Machine
end

