-- ==== Sys2Proof/Machine/HdrExt.lean ====
section
/-! DEFINITION. RFC 8285 one-byte header extensions and the RFC 6464 audio level
(spec/42_hdrext.md R180 to R186). -/

namespace Sys2Proof.Machine

/-- R180 `SCAN(D, want)`, with `skip` bytes of the current element still to pass over; `want = none`
asks for any element.  The data of the first element that answers, none if the scan ends first. -/
def scan (want : Option (BitVec 8)) : Nat → Bytes → Option Bytes
  | _, [] => none
  | skip + 1, _ :: d => scan want skip d
  | 0, b :: d =>
    let id := b >>> 4
    let len := (b &&& 0x0F#8).toNat + 1
    if id = 0#8 then scan want 0 d
    else if id = 15#8 then none
    else if d.length < len then none
    else if want = none ∨ want = some id then some (d.take len)
    else scan want len d

/-- R86: the two-byte form, recognized but not implemented. -/
def twoByteForm (profile : BitVec 16) : Bool := profile &&& 0xFFF0#16 == 0x1000#16

/-- R85, R182: one element, padded to a 32-bit boundary with id-0 bytes. -/
def oneByteElement (id : BitVec 8) (data : Bytes) : Bytes :=
  let e := ((id <<< 4) ||| BitVec.ofNat 8 (data.length - 1)) :: data
  e ++ zeros ((4 - e.length % 4) % 4)

/-- R182: a checked `RTP.SETHDREXT 0xBEDE`. -/
def Pkt.setGenExt (p : Pkt) (id : BitVec 8) (data : Bytes) : Except Status Pkt :=
  if badExtId id then .error .invalidField
  else if data.length < 1 ∨ 16 < data.length then .error .invalidField
  else if p.x && p.badPay then .error .invalidField
  else if p.x && twoByteForm p.profile then .error .notImplemented
  else if p.x && p.profile == Config.profileOneByte && (scan none 0 p.extData).isSome then
    .error .notImplemented
  else p.setHdrExt Config.profileOneByte (oneByteElement id data)

/-- R182 `RTP.SETGENEXT`. -/
def execRtpSetGenExt (id : BitVec 8) (data : Bytes) (s : State) :
    Host.Outcome State Fault Refusal :=
  perform s (s.editPkt fun p => p.setGenExt id data)

/-- R183: the data of the first matching element, none for "not found", which is no error. -/
def Pkt.getGenExt (p : Pkt) (id : BitVec 8) : Except Status (Option Bytes) :=
  if p.x = false then .ok none
  else if p.badPay then .error .invalidField
  else if p.profile ≠ Config.profileOneByte then .ok none
  else if badExtId id then .ok none
  else .ok (scan (some id) 0 p.extData)

/-- R183 `RTP.GETGENEXT`. -/
def execRtpGetGenExt (id : BitVec 8) (s : State) : Host.Outcome State Fault Refusal :=
  perform s (s.readPkt fun p => (p.getGenExt id).map fun r =>
    match r with
    | none => [.bool false, .bytes []]
    | some d => [.bool true, .bytes d])

/-- R87, R185: the audio-level byte. -/
def volumeByte (vad : Bool) (dbov : Int) : Byte :=
  (if vad then 0x80#8 else 0x00#8) ||| (BitVec.ofInt 8 (-dbov) &&& 0x7F#8)

/-- R185: a checked `RTP.SETGENEXT`, under the id `VOL_ID` that the extension map gives. -/
def Pkt.setVol (p : Pkt) (volId : Option (BitVec 8)) (vad : Bool) (dbov : Int) :
    Except Status Pkt :=
  if dbov < -127 ∨ 0 < dbov then .error .invalidField
  else
    match volId with
    | none => .error .invalidField
    | some id => p.setGenExt id [volumeByte vad dbov]

/-- R185 `RTP.SETVOL`. -/
def execRtpSetVol (vad : Bool) (dbov : Int) (s : State) : Host.Outcome State Fault Refusal :=
  perform s (s.editPkt fun p => p.setVol s.ses.volId vad dbov)

/-- R186: a level is an element of exactly one byte (D16). -/
def volumeOf : Option Bytes → List Operand
  | some [b] => [.bool true, .bool (b.getLsbD 7), .i8 (-((b &&& 0x7F#8).toNat : Int))]
  | _ => [.bool false, .bool false, .i8 0]

/-- R186 `RTP.GETVOL`. -/
def execRtpGetVol (s : State) : Host.Outcome State Fault Refusal :=
  perform s (s.readPkt fun p =>
    match s.ses.volId with
    | none => .ok [.bool false, .bool false, .i8 0]
    | some id => (p.getGenExt id).map volumeOf)

end Sys2Proof.Machine
end

