-- ==== Sys2Proof/Machine/Kdf.lean ====
section
/-! DEFINITION. SRTP AES-CTR key derivation (spec/45_kdf.md R240 to R247). -/

namespace Sys2Proof.Machine

/-- R241: install a master key and a right-zero-padded master salt. -/
def Kdf.init (k : Kdf) (key salt : Bytes) : Except Status Kdf :=
  if badKeyLength key then .error .invalidField
  else if Config.msaltLen < salt.length then .error .invalidField
  else .ok { valid := true, key := overwrite k.key key, klen := key.length,
             salt := salt ++ zeros (Config.msaltLen - salt.length) }

/-- R241 `KDF.INIT`. -/
def execKdfInit (key salt : Bytes) (s : State) : Host.Outcome State Fault Refusal :=
  perform s ((s.kdf.init key salt).map fun k => (s.withKdf k, []))

/-- R98, R242: the counter-mode IV `x ‖ 00 00`. -/
def Kdf.prfIv (k : Kdf) (label index : Nat) : Bytes :=
  k.salt.take 7 ++ xorBytes (k.salt.drop 7) (beBytes 1 label ++ beBytes 6 index) ++ zeros 2

/-- R242 `PRF(label, index, size)`. -/
def Kdf.prf (k : Kdf) (label index size : Nat) : Bytes :=
  ctr (k.key.take k.klen) (blockOfBytes (k.prfIv label index)) size

/-- R244: labels Ke..KCs are 0..5. -/
def Kdf.derive (k : Kdf) (label index size : Nat) : Except Status Bytes :=
  if !k.valid then .error .illegalCommand
  else if 5 < label then .error .invalidField
  else .ok (k.prf label index size)

/-- R244 `KDF.DERIVE`. -/
def execKdfDerive (label : BitVec 8) (index : BitVec 48) (size : BitVec 16) (s : State) :
    Host.Outcome State Fault Refusal :=
  perform s ((s.kdf.derive label.toNat index.toNat size.toNat).map fun d => (s, [.bytes d]))

/-- R245: the four outputs of `DeriveForStream`. -/
structure StreamKeys where
  /-- label 0 (Ke) -/
  rtpKey : Bytes
  /-- label 2 (Ks) -/
  rtpSalt : Bytes
  /-- label 3 (KCe) -/
  rtcpKey : Bytes
  /-- label 5 (KCs) -/
  rtcpSalt : Bytes
  deriving DecidableEq, Repr

/-- R245, R247: the session keys and salts of a supported cipher. -/
def Kdf.deriveStream (k : Kdf) (cipher : BitVec 16) : Except Status StreamKeys :=
  if !k.valid then .error .illegalCommand
  else
    match cipherKeyLength cipher with
    | none => .error .unsupportedCipher
    | some klen =>
      .ok { rtpKey := k.prf 0 0 klen, rtpSalt := k.prf 2 0 Config.saltLen,
            rtcpKey := k.prf 3 0 klen, rtcpSalt := k.prf 5 0 Config.saltLen }

/-- R247 `KDF.DERIVESTREAM`. -/
def execKdfDeriveStream (cipher : BitVec 16) (s : State) : Host.Outcome State Fault Refusal :=
  perform s ((s.kdf.deriveStream cipher).map fun d =>
    (s, [.bytes d.rtpKey, .bytes d.rtpSalt, .bytes d.rtcpKey, .bytes d.rtcpSalt]))

end Sys2Proof.Machine
end

