-- ==== Sys2Proof/Machine/Ohb.lean ====
section
/-! DEFINITION. Original Header Block commands (spec/43_ohb.md R200 to R203; layout R92, R93). -/

namespace Sys2Proof.Machine

/-- R201: the config byte: bit 0 SEQ differs, bit 1 PT differs, bit 2 M differs, bit 3 the original
M when bit 2 is set. -/
def Pkt.ohbConfig (p : Pkt) (pt : BitVec 8) (seq : BitVec 16) (m : Bool) : Byte :=
  bitAt (seq != p.seq) 0 ||| bitAt (pt != p.pt) 1 ||| bitAt (m != p.m) 2 ||| bitAt (m != p.m && m) 3

/-- R92: the block in forward order: PT if bit 1, SEQ if bit 0, the config byte (D17). -/
def Pkt.ohbBlock (p : Pkt) (pt : BitVec 8) (seq : BitVec 16) (m : Bool) : Bytes :=
  (if pt != p.pt then [pt] else []) ++ (if seq != p.seq then beBytes 2 seq.toNat else []) ++
    [p.ohbConfig pt seq m]

/-- R201: append the block that records the original values `pt`, `seq`, `m`. -/
def Pkt.setOhb (p : Pkt) (pt : BitVec 8) (seq : BitVec 16) (m : Bool) : Except Status Pkt :=
  if 127 < pt.toNat then .error .invalidField
  else if Config.mtu < p.len + (p.ohbBlock pt seq m).length then .error .sizeOverflow
  else .ok ((p.write p.len (p.ohbBlock pt seq m)).setLen
    (p.len + (p.ohbBlock pt seq m).length))

/-- R201 `RTP.SETOHB`. -/
def execRtpSetOhb (pt : BitVec 8) (seq : BitVec 16) (m : Bool) (s : State) :
    Host.Outcome State Fault Refusal :=
  perform s (s.editPkt fun p => p.setOhb pt seq m)

/-- R92: the length that a config byte implies, 1..4. -/
def ohbLength (c : Byte) : Nat :=
  1 + (if c.getLsbD 0 then 2 else 0) + (if c.getLsbD 1 then 1 else 0)

/-- R202: the last byte of the live buffer is the config byte. -/
def Pkt.ohbLast (p : Pkt) : Byte := p.octet (p.len - 1)

/-- R202 `RTP.GETOHBLEN`. -/
def execRtpGetOhbLen (s : State) : Host.Outcome State Fault Refusal :=
  perform s (s.readPkt fun p => .ok [.u8 (BitVec.ofNat 8 (ohbLength p.ohbLast))])

/-- R203: the original PT, SEQ and M: the block's values over the header's. -/
def Pkt.getOhb (p : Pkt) : Except Status (BitVec 8 × BitVec 16 × Bool) :=
  if p.badPay then .error .invalidField
  else if p.len - p.payOff < ohbLength p.ohbLast then .error .invalidField
  else
    let c := p.ohbLast
    let i := p.len - 1
    let seq := if c.getLsbD 0 then BitVec.ofNat 16 (Memory.readBE p.buf (i - 2) 2) else p.seq
    let j := if c.getLsbD 0 then i - 2 else i
    let pt := if c.getLsbD 1 then p.octet (j - 1) &&& 0x7F#8 else p.pt
    let m := if c.getLsbD 2 then c.getLsbD 3 else p.m
    .ok (pt, seq, m)

/-- R203 `RTP.GETOHB`. -/
def execRtpGetOhb (s : State) : Host.Outcome State Fault Refusal :=
  perform s (s.readPkt fun p => p.getOhb.map fun r => [.u8 r.1, .u16 r.2.1, .bool r.2.2])

end Sys2Proof.Machine
end

