-- ==== Sys2Proof/Machine/Session.lean ====
section
/-! DEFINITION. The session driver and the EKT tail (spec/48_session.md R280 to R295). -/

namespace Sys2Proof.Machine

/-! ## Configuration commands -/

/-- R281: the session's registers once a cipher's keys have been derived. -/
def Ses.install (e : Ses) (cipher : BitVec 16) (useEkt : Bool) (d : StreamKeys) : Ses :=
  { e with state := .keyed, cipher := cipher, useEkt := useEkt, klen := d.rtpKey.length,
           rtpKey := overwrite e.rtpKey d.rtpKey, rtpSalt := d.rtpSalt,
           rtcpKey := overwrite e.rtcpKey d.rtcpKey, rtcpSalt := d.rtcpSalt }

/-- R281: state, key length, salt length, cipher, in that order; then `KDF.INIT` and
`KDF.DERIVESTREAM` (which check the same again). -/
def State.setSrtp (s : State) (cipher : BitVec 16) (useEkt : Bool) (key salt : Bytes) : Result :=
  if s.ses.state = .keyed then .error .illegalCommand
  else
    match s.kdf.init key salt with
    | .error k => .error k
    | .ok kdf =>
      match kdf.deriveStream cipher with
      | .error k => .error k
      | .ok d => .ok ((s.withKdf kdf).withSes (s.ses.install cipher useEkt d), [])

/-- R281 `SES.SETSRTP`. -/
def execSesSetSrtp (cipher : BitVec 16) (useEkt : Bool) (key salt : Bytes) (s : State) :
    Host.Outcome State Fault Refusal :=
  perform s (s.setSrtp cipher useEkt key salt)

/-- R282: one name has one id: the other slots that hold the URI are emptied. -/
def Ses.mapUri (e : Ses) (id : Nat) (uri : Bytes) : Ses :=
  { e with extMap := (e.extMap.map fun u => if u = uri then [] else u).set (id - 1) uri }

/-- R282 `SES.SETEXTMAP`. -/
def execSesSetExtMap (id : BitVec 8) (uri : Bytes) (s : State) :
    Host.Outcome State Fault Refusal :=
  perform s (
    if badExtId id then .error .invalidField
    else if uri.length < 1 ∨ Config.uriMax < uri.length then .error .invalidField
    else .ok (s.withSes (s.ses.mapUri id.toNat uri), []))

/-- R283 `SES.SETREWRITE`. -/
def execSesSetRewrite (on : Bool) (s : State) : Host.Outcome State Fault Refusal :=
  perform s (.ok (s.withSes { s.ses with rewrite := on }, []))

/-- R284 `SES.SETSEQ`: the rollover counter stays. -/
def execSesSetSeq (seq : BitVec 16) (s : State) : Host.Outcome State Fault Refusal :=
  perform s (.ok (s.withSes (s.ses.setSeq seq), []))

/-- R285 `SES.GETSEQ`. -/
def execSesGetSeq (s : State) : Host.Outcome State Fault Refusal :=
  perform s (.ok (s, [.u16 s.ses.seq]))

/-- R286 `SES.GETROC`. -/
def execSesGetRoc (s : State) : Host.Outcome State Fault Refusal :=
  perform s (.ok (s, [.u32 s.ses.roc]))

/-! ## RTP: encode -/

/-- R287 step 3: the SEQ that goes on the wire. -/
def Ses.wireSeq (e : Ses) (p : Pkt) : BitVec 16 := if e.rewrite then e.seq else p.seq

/-- R287: the size of the wire packet, checked before anything is written (D27). -/
def Ses.encodedLength (e : Ses) (p : Pkt) : Nat :=
  p.len + (if e.wireSeq p != p.seq then 3 else 1) + Config.tagLen +
    (if e.useEkt then p.ektLen else 0)

/-- R287 step 7: append the stored EKT tail. -/
def Pkt.appendEkt (p : Pkt) : Pkt := (p.write p.len p.ektTag).setLen (p.len + p.ektLen)

/-- R287 steps 3, 4, 5 and 7 on the PKT unit: rewrite SEQ, append the OHB, seal, append the tail. -/
def Ses.encodePkt (e : Ses) (p : Pkt) : Except Status Pkt :=
  match (p.setSeq (e.wireSeq p)).setOhb p.pt p.seq p.m with
  | .error k => .error k
  | .ok q =>
    match q.encGcm e.roc e.liveRtpKey e.rtpSalt with
    | .error k => .error k
    | .ok w => .ok (if e.useEkt then w.appendEkt else w)

/-- R287: the rule of `SES.ENCODE`. -/
def State.encode (s : State) : Result :=
  if s.ses.cipher = 0x0000#16 then .error .unsupportedCipher
  else if !s.pkt.valid then .error .illegalCommand
  else if s.pkt.badPay then .error .invalidField
  else if Config.mtu < s.ses.encodedLength s.pkt then .error .sizeOverflow
  else
    match s.ses.encodePkt s.pkt with
    | .error k => .error k
    | .ok w =>
      .ok ((s.withPkt w).withSes (if s.ses.rewrite then s.ses.advance else s.ses),
        [.bytes w.bytes])

/-- R287 `SES.ENCODE`. -/
def execSesEncode (s : State) : Host.Outcome State Fault Refusal := perform s s.encode

/-! ## RTP: decode -/

/-- R289 `EKT_SPLIT(W)`: the length of the EKT tail, which leaves at least one byte (C8, C10). -/
def ektSplit (wire : Bytes) : Except Status Nat :=
  let n := wire.length
  let bounded (total : Nat) : Except Status Nat :=
    if n ≤ total then .error .malformedEkt else .ok total
  if n < 1 then .error .malformedEkt
  else if wire.getD (n - 1) 0x00#8 = 0x00#8 then bounded 1
  else if wire.getD (n - 1) 0x00#8 = 0x02#8 then
    if n < 3 then .error .malformedEkt
    else bounded (beNat ((wire.drop (n - 3)).take 2) + 2 + 2 + 1)
  else .error .malformedEkt

/-- R290 step 4: the packet without its OHB and with the original PT, M and SEQ (C3). -/
def Pkt.restore (p : Pkt) (pt : BitVec 8) (seq : BitVec 16) (m : Bool) : Pkt :=
  ((p.write 1 [bitAt m 7 ||| pt]).setSeq seq).setLen (p.len - ohbLength p.ohbLast)

/-- R290 steps 3 and 4 on a copy of the PKT unit that holds the packet bytes (log 7: the copy counts
as a loaded slot). -/
def Ses.decodePkt (e : Ses) (p : Pkt) (packet : Bytes) : Except Status Pkt :=
  match (p.load packet).decGcm e.roc e.liveRtpKey e.rtpSalt with
  | .error k => .error k
  | .ok q =>
    match q.getOhb with
    | .error k => .error k
    | .ok (pt, seq, m) => .ok (q.restore pt seq m)

/-- R290: the rule of `SES.DECODE`. -/
def State.decode (s : State) (wire : Bytes) : Result :=
  if s.ses.cipher = 0x0000#16 then .error .unsupportedCipher
  else if Config.mtu < wire.length then .error .sizeOverflow
  else
    match (if s.ses.useEkt then ektSplit wire else .ok 0) with
    | .error k => .error k
    | .ok ektTotal =>
      let n := wire.length - ektTotal
      if n < 12 then .error .invalidField
      else
        match s.ses.decodePkt s.pkt (wire.take n) with
        | .error k => .error k
        | .ok q => .ok (s.withPkt (q.setEkt (if s.ses.useEkt then wire.drop n else [0x00#8])), [])

/-- R290 `SES.DECODE`. -/
def execSesDecode (wire : Bytes) (s : State) : Host.Outcome State Fault Refusal :=
  perform s (s.decode wire)

/-! ## RTCP (R292) -/

/-- R293: the rule of `SES.ENCRTCP`. -/
def State.encRtcp (s : State) : Result :=
  if s.ses.cipher = 0x0000#16 then .error .unsupportedCipher
  else if !s.rtcp.valid then .error .illegalCommand
  else
    match s.rtcp.encGcm s.ses.liveRtcpKey s.ses.rtcpSalt with
    | .error k => .error k
    | .ok r => .ok (s.withRtcp r, [.bytes r.wire])

/-- R293 `SES.ENCRTCP`. -/
def execSesEncRtcp (s : State) : Host.Outcome State Fault Refusal := perform s s.encRtcp

/-- R294: the rule of `SES.DECRTCP`, on a copy of the RTCP unit. -/
def State.decRtcp (s : State) (wire : Bytes) : Result :=
  if s.ses.cipher = 0x0000#16 then .error .unsupportedCipher
  else
    match s.rtcp.loads wire with
    | .error k => .error k
    | .ok loaded =>
      match loaded.decGcm s.ses.liveRtcpKey s.ses.rtcpSalt with
      | .error k => .error k
      | .ok r => .ok (s.withRtcp r, [])

/-- R294 `SES.DECRTCP`. -/
def execSesDecRtcp (wire : Bytes) (s : State) : Host.Outcome State Fault Refusal :=
  perform s (s.decRtcp wire)

end Sys2Proof.Machine
end

