-- ==== Sys2Proof/Machine/Dispatch.lean ====
section
/-! DEFINITION. One arm per command of spec/30_encoding.md R112, each a direct call of its meaning. -/

namespace Sys2Proof.Machine

def exec (i : Instr) (s : State) : Host.Outcome State Fault Refusal :=
  match i with
  | .rtpNew pt seq ts ssrc payload => Sys2Proof.Machine.execRtpNew pt seq ts ssrc payload s
  | .rtpLoad data => Sys2Proof.Machine.execRtpLoad data s
  | .rtpStore => Sys2Proof.Machine.execRtpStore s
  | .rtpGetP => Sys2Proof.Machine.execRtpGetP s
  | .rtpGetX => Sys2Proof.Machine.execRtpGetX s
  | .rtpGetCc => Sys2Proof.Machine.execRtpGetCc s
  | .rtpGetM => Sys2Proof.Machine.execRtpGetM s
  | .rtpGetPt => Sys2Proof.Machine.execRtpGetPt s
  | .rtpGetSeq => Sys2Proof.Machine.execRtpGetSeq s
  | .rtpGetTs => Sys2Proof.Machine.execRtpGetTs s
  | .rtpGetSsrc => Sys2Proof.Machine.execRtpGetSsrc s
  | .rtpSetP p => Sys2Proof.Machine.execRtpSetP p s
  | .rtpSetX x => Sys2Proof.Machine.execRtpSetX x s
  | .rtpSetCc cc => Sys2Proof.Machine.execRtpSetCc cc s
  | .rtpSetM m => Sys2Proof.Machine.execRtpSetM m s
  | .rtpSetPt pt => Sys2Proof.Machine.execRtpSetPt pt s
  | .rtpSetSeq seq => Sys2Proof.Machine.execRtpSetSeq seq s
  | .rtpSetTs ts => Sys2Proof.Machine.execRtpSetTs ts s
  | .rtpSetSsrc ssrc => Sys2Proof.Machine.execRtpSetSsrc ssrc s
  | .rtpSetCsrc list => Sys2Proof.Machine.execRtpSetCsrc list s
  | .rtpSetHdrExt profile data => Sys2Proof.Machine.execRtpSetHdrExt profile data s
  | .rtpSetPayload data => Sys2Proof.Machine.execRtpSetPayload data s
  | .rtpSetPadding sizeMult => Sys2Proof.Machine.execRtpSetPadding sizeMult s
  | .rtpGetPayload => Sys2Proof.Machine.execRtpGetPayload s
  | .rtpGetCsrc => Sys2Proof.Machine.execRtpGetCsrc s
  | .rtpGetHdrExt => Sys2Proof.Machine.execRtpGetHdrExt s
  | .rtpSetGenExt id data => Sys2Proof.Machine.execRtpSetGenExt id data s
  | .rtpGetGenExt id => Sys2Proof.Machine.execRtpGetGenExt id s
  | .rtpSetVol vad dbov => Sys2Proof.Machine.execRtpSetVol vad dbov s
  | .rtpGetVol => Sys2Proof.Machine.execRtpGetVol s
  | .rtpSetOhb pt seq m => Sys2Proof.Machine.execRtpSetOhb pt seq m s
  | .rtpGetOhb => Sys2Proof.Machine.execRtpGetOhb s
  | .rtpGetOhbLen => Sys2Proof.Machine.execRtpGetOhbLen s
  | .rtpEncGcm roc key salt => Sys2Proof.Machine.execRtpEncGcm roc key salt s
  | .rtpDecGcm roc key salt => Sys2Proof.Machine.execRtpDecGcm roc key salt s
  | .rtcpLoad data => Sys2Proof.Machine.execRtcpLoad data s
  | .rtcpLoads data => Sys2Proof.Machine.execRtcpLoads data s
  | .rtcpStore => Sys2Proof.Machine.execRtcpStore s
  | .rtcpGetPt => Sys2Proof.Machine.execRtcpGetPt s
  | .rtcpGetLenW => Sys2Proof.Machine.execRtcpGetLenW s
  | .rtcpGetLenB => Sys2Proof.Machine.execRtcpGetLenB s
  | .rtcpGetSsrc => Sys2Proof.Machine.execRtcpGetSsrc s
  | .rtcpGetIndex => Sys2Proof.Machine.execRtcpGetIndex s
  | .rtcpGetE => Sys2Proof.Machine.execRtcpGetE s
  | .rtcpSetPt pt => Sys2Proof.Machine.execRtcpSetPt pt s
  | .rtcpSetLenW words => Sys2Proof.Machine.execRtcpSetLenW words s
  | .rtcpSetSsrc ssrc => Sys2Proof.Machine.execRtcpSetSsrc ssrc s
  | .rtcpSetIndex index => Sys2Proof.Machine.execRtcpSetIndex index s
  | .rtcpSetE e => Sys2Proof.Machine.execRtcpSetE e s
  | .rtcpEncGcm key salt => Sys2Proof.Machine.execRtcpEncGcm key salt s
  | .rtcpDecGcm key salt => Sys2Proof.Machine.execRtcpDecGcm key salt s
  | .kdfInit key salt => Sys2Proof.Machine.execKdfInit key salt s
  | .kdfDerive label index size => Sys2Proof.Machine.execKdfDerive label index size s
  | .kdfDeriveStream cipher => Sys2Proof.Machine.execKdfDeriveStream cipher s
  | .sesSetSrtp cipher useEkt key salt => Sys2Proof.Machine.execSesSetSrtp cipher useEkt key salt s
  | .sesSetExtMap id uri => Sys2Proof.Machine.execSesSetExtMap id uri s
  | .sesSetRewrite on => Sys2Proof.Machine.execSesSetRewrite on s
  | .sesSetSeq seq => Sys2Proof.Machine.execSesSetSeq seq s
  | .sesEncode => Sys2Proof.Machine.execSesEncode s
  | .sesDecode wire => Sys2Proof.Machine.execSesDecode wire s
  | .sesEncRtcp => Sys2Proof.Machine.execSesEncRtcp s
  | .sesDecRtcp wire => Sys2Proof.Machine.execSesDecRtcp wire s
  | .sesGetSeq => Sys2Proof.Machine.execSesGetSeq s
  | .sesGetRoc => Sys2Proof.Machine.execSesGetRoc s

end Sys2Proof.Machine
end

