-- ==== Sys2Proof/Machine/Step.lean ====
section
/-! DEFINITION. One step of the machine: the engine takes what the host presents next
(spec/10_state.md R20, R22; spec/70_reset_and_hazards.md R370, R375). -/

namespace Sys2Proof.Machine

/-- A step: with no input the engine is idle and holds its state (R357); the reset signal resets
(R370); a descriptor is decoded and its command performed, and one that does not decode is answered
`IllegalCommand` (R107).  Each command gives one response and the next input waits for it (R67). -/
def step (s : State) : Host.Outcome State Fault Refusal :=
  match s.takeInput with
  | none => .next s
  | some (.reset, t) => .next t.resetSignal
  | some (.command descriptor, t) =>
    match Sys2Proof.decode descriptor with
    | .error _ => .next t.refuseDescriptor
    | .ok i => exec i t

/-- `s` with the descriptor of a table word as the next thing the host presents. -/
def State.withFetchWord (s : State) (nbits w : Nat) : State :=
  { s with inputs := .command (tableDescriptor nbits w) :: s.inputs }

end Sys2Proof.Machine
end

