-- ==== Sys2Proof/Safety.lean ====
section
/-! DEFINITION. What counts as a safe state, and the classes of commands, in the terms the claims use.

No run of the engine can stop (it has no fault, spec/70_reset_and_hazards.md R375), so safety is an
invariant of the registers: the legal values of spec/10_state.md R24, R28, R30, R31 and the caps of
R6. -/

namespace Sys2Proof.Machine

/-- The pending EKT tag is a tail as R100 describes one: the byte 00, or a full tag whose length
field counts its data (D31: only `RTP.NEW`, `RTP.LOAD` and `SES.DECODE` set it). -/
abbrev Pkt.ektShape (p : Pkt) : Prop :=
  (p.ektLen = 1 ∧ Memory.read p.ekt 0 = 0x00#8) ∨
    (5 ≤ p.ektLen ∧ Memory.read p.ekt (p.ektLen - 1) = 0x02#8 ∧
      Memory.readBE p.ekt (p.ektLen - 3) 2 + 5 = p.ektLen)

/-- R24: stores in canonical form and within their capacity, the live lengths legal. -/
abbrev Pkt.Inv (p : Pkt) : Prop :=
  (Memory.wf p.buf ∧ Memory.within p.buf Config.mtu) ∧
    (Memory.wf p.ekt ∧ Memory.within p.ekt Config.ektMax) ∧
    (p.len ≤ Config.mtu ∧ (p.valid = true → 12 ≤ p.len)) ∧
    (1 ≤ p.ektLen ∧ p.ektLen ≤ Config.ektMax ∧ p.ektShape)

/-- R28: the store in canonical form and within its capacity, `LEN + 4*ESP <= 1500`, and no index or
E-flag without an ESRTCP word (D19). -/
abbrev Rtcp.Inv (r : Rtcp) : Prop :=
  (Memory.wf r.buf ∧ Memory.within r.buf Config.mtu) ∧
    (r.wireLen ≤ Config.mtu ∧ (r.valid = true → 8 ≤ r.len)) ∧ (r.esp = false → r.esw = 0#32)

/-- R30: register widths, and a legal key length once a key is installed. -/
abbrev Kdf.Inv (k : Kdf) : Prop :=
  (k.key.length = 32 ∧ k.salt.length = 14) ∧ (k.valid = true → k.klen = 16 ∨ k.klen = 32)

/-- R31, R32: register widths; no cipher while Fresh, a supported one with its key length while
Keyed; 14 slots of at most `URI_MAX` bytes, no URI in two of them (R282). -/
abbrev Ses.Inv (e : Ses) : Prop :=
  (e.rtpKey.length = 32 ∧ e.rtcpKey.length = 32 ∧ e.rtpSalt.length = 12 ∧
      e.rtcpSalt.length = 12) ∧
    (e.state = .fresh → e.cipher = 0x0000#16) ∧
    (e.state = .keyed → e.cipher = 0x0007#16 ∧ e.klen = 16 ∨ e.cipher = 0x0008#16 ∧ e.klen = 32) ∧
    (e.extMap.length = 14 ∧ (∀ uri ∈ e.extMap, uri.length ≤ Config.uriMax) ∧
      e.extMap.Pairwise (fun u v => u = [] ∨ u ≠ v))

/-- The registers of an instance are legal. -/
abbrev State.Inv (s : State) : Prop := s.pkt.Inv ∧ s.rtcp.Inv ∧ s.kdf.Inv ∧ s.ses.Inv

/-- R371: every register whose reset value the spec gives has it.  (`PKT.BUF`, `RTCP.BUF`, `KDF.KEY`
and the session keys and salts have none: log 4 and 5.) -/
abbrev State.AtReset (s : State) : Prop :=
  (s.pkt.valid = false ∧ s.rtcp.valid = false ∧ s.kdf.valid = false) ∧
    (s.pkt.len = 0 ∧ s.rtcp.len = 0) ∧
    (Memory.read s.pkt.ekt 0 = 0x00#8 ∧ s.pkt.ektLen = 1) ∧
    (s.rtcp.esp = false ∧ s.rtcp.esw = 0#32) ∧
    (s.kdf.klen = 0 ∧ s.kdf.salt = List.replicate 14 0x00#8) ∧
    (s.ses.state = .fresh ∧ s.ses.cipher = 0x0000#16) ∧
    (s.ses.useEkt = false ∧ s.ses.rewrite = false) ∧
    (s.ses.seq.toNat < 0x8000 ∧ s.ses.roc = 0#32 ∧ s.ses.klen = 0) ∧
    s.ses.extMap = List.replicate 14 []

/-! ## What a command stored -/

/-- Store `b` is store `m` with the bytes `bs` from offset `a` on, and no other byte changed. -/
def Memory.patched (b m : Memory) (a : Nat) (bs : Bytes) : Prop :=
  ∀ i, Memory.read b i =
    if a ≤ i ∧ i < a + bs.length then bs.getD (i - a) 0x00#8 else Memory.read m i

/-- Store `b` is store `m` with octet 0 set to `v` and the bytes `bs` from offset `a` on, and no
other byte changed. -/
def Memory.patchedHead (b m : Memory) (v : Byte) (a : Nat) (bs : Bytes) : Prop :=
  ∀ i, Memory.read b i =
    if i = 0 then v
    else if a ≤ i ∧ i < a + bs.length then bs.getD (i - a) 0x00#8 else Memory.read m i

/-! ## Classes of commands, by the opcode map of R110 to R112 -/

/-- R111: the 192 unassigned opcodes. -/
def unassignedOpcode (op : Byte) : Bool :=
  let n := op.toNat
  decide (n ≤ 0x0F) || (decide (0x13 ≤ n) && decide (n ≤ 0x1F)) ||
    (decide (0x37 ≤ n) && decide (n ≤ 0x3F)) || (decide (0x44 ≤ n) && decide (n ≤ 0x47)) ||
    decide (n = 0x4B) || decide (n = 0x4E) || decide (n = 0x4F) ||
    (decide (0x63 ≤ n) && decide (n ≤ 0x6F)) || decide (0x7A ≤ n)

/-- Opcodes from `lo` to `hi`. -/
def opcodeIn (i : Instr) (lo hi : Nat) : Bool :=
  decide (lo ≤ i.opcode.toNat) && decide (i.opcode.toNat ≤ hi)

/-- R149: every `RTP.*` command but `RTP.NEW` and `RTP.LOAD`. -/
def needsRtpPacket (i : Instr) : Bool := opcodeIn i 0x12 0x4D

/-- R225: every `RTCP.*` command but `RTCP.LOAD` and `RTCP.LOADS`. -/
def needsRtcpPacket (i : Instr) : Bool := opcodeIn i 0x52 0x5F

/-- R244, R247: the two commands that need an installed master key. -/
def needsMasterKey (i : Instr) : Bool := opcodeIn i 0x61 0x62

/-- The getters, `RTP.STORE`, `RTCP.STORE` and the two deriving commands: "Writes nothing". -/
def readsOnly (i : Instr) : Bool :=
  opcodeIn i 0x12 0x12 || opcodeIn i 0x20 0x27 || opcodeIn i 0x34 0x36 || opcodeIn i 0x41 0x41 ||
    opcodeIn i 0x43 0x43 || opcodeIn i 0x49 0x4A || opcodeIn i 0x52 0x58 ||
    opcodeIn i 0x61 0x62 || opcodeIn i 0x78 0x79

/-- R346: the four decrypting commands. -/
def decrypts (i : Instr) : Bool :=
  opcodeIn i 0x4D 0x4D || opcodeIn i 0x5F 0x5F || opcodeIn i 0x75 0x75 || opcodeIn i 0x77 0x77

/-- R346: `KDF.DERIVESTREAM` and the five `SES` commands that use the cipher. -/
def usesCipher (i : Instr) : Bool :=
  opcodeIn i 0x62 0x62 || opcodeIn i 0x70 0x70 || opcodeIn i 0x74 0x77

end Sys2Proof.Machine
end

