-- ==== Sys2Proof/Certificates/Slice0/Obligations.lean ====
section
/-! DEFINITION. The statements for the provers, in the order of spec/: encoding, the host interface,
whole-machine rules, then each unit.

A command's statement is one chain of cases over all states and operands, in the check order of R345:
its conclusion is the whole next state (`s.respond r` is `s` with the response `r` appended), so it
says the result, the completion and the frame at once.  Where a store changes, `∃ b` is its new
content and the statement fixes every byte of it. -/

open Sys2Proof Sys2Proof.Machine

/-! ## Encoding (spec/30_encoding.md) -/

/-- R105, R108, R112: decoding the descriptor of a well-formed command gives the command back, with
every operand at every value its type admits. -/
def Obligations.DecodeReadsBackEveryEncoding : Prop :=
  ∀ i : Instr, WellFormed i = true → decode (encode i) = .ok i

/-- R105, R107: a byte string that decodes is the descriptor of exactly the command it decodes to, and
that command is well-formed. -/
def Obligations.DecodedDescriptorIsItsEncoding : Prop :=
  ∀ (d : Bytes) (i : Instr), decode d = .ok i → WellFormed i = true ∧ encode i = d

/-- R113: the worked descriptors decode to the commands they stand for, the four bad ones to none (the
names of the refusals are the model's choice, log 3). -/
def Obligations.WorkedDescriptorsDecode : Prop :=
  decode [0x2D#8, 0x00#8, 0x2A#8] = .ok (.rtpSetSeq 0x002A#16) ∧
  decode [0x32#8, 0x00#8, 0x04#8, 0xC8#8, 0x0B#8, 0x0C#8, 0x0D#8] =
    .ok (.rtpSetPayload [0xC8#8, 0x0B#8, 0x0C#8, 0x0D#8]) ∧
  decode [0x42#8, 0x01#8, 0xF4#8] = .ok (.rtpSetVol true (-12)) ∧
  decode [0x61#8, 0x00#8, 0x00#8, 0x00#8, 0x00#8, 0x00#8, 0x00#8, 0x00#8, 0x00#8, 0x10#8] =
    .ok (.kdfDerive 0#8 0#48 16#16) ∧
  decode [0x41#8, 0x01#8] = .ok (.rtpGetGenExt 1#8) ∧
  decode [0x2D#8, 0x00#8] = .error .truncatedOperand ∧
  decode [0x2D#8, 0x00#8, 0x2A#8, 0x00#8] = .error .trailingBytes ∧
  decode [0x28#8, 0x02#8] = .error (.illegalBool 0x02#8) ∧
  decode [0x00#8] = .error (.unassignedOpcode 0x00#8)

/-- R111: an opcode is unassigned exactly when no command has it, there are 192 of them, and a
descriptor that starts with one is answered `IllegalCommand` and changes no register. -/
def Obligations.UnassignedOpcodesAreRefused : Prop :=
  (∀ op : Byte, unassignedOpcode op = true ↔ ∀ i : Instr, i.opcode ≠ op) ∧
  ((List.range 256).filter fun n => unassignedOpcode (BitVec.ofNat 8 n)).length = 192 ∧
  ∀ (s : State) (op : Byte) (d : Bytes) (rest : List HostInput), unassignedOpcode op = true →
    s.inputs = .command (op :: d) :: rest →
    Machine.step s = .next (({ s with inputs := rest } : State).respond [0x07#8])

/-- R107: the empty string, a descriptor cut short, one with bytes after the last operand and one with
a `bool` byte above 1 do not decode; what does not decode is answered `IllegalCommand` and changes
no register.  The names of the refusals are the model's choice (log 3). -/
def Obligations.UndecodableDescriptorsAreRefused : Prop :=
  decode [] = .error .emptyDescriptor ∧
  (∀ (i : Instr) (d cut : Bytes), WellFormed i = true → encode i = d ++ cut → d ≠ [] → cut ≠ [] →
    decode d = .error .truncatedOperand) ∧
  (∀ (i : Instr) (extra : Bytes), WellFormed i = true → extra ≠ [] →
    decode (encode i ++ extra) = .error .trailingBytes) ∧
  (∀ (op b : Byte) (rest : Bytes), operandTypes op = some [.bool] → b ≠ 0x00#8 → b ≠ 0x01#8 →
    decode (op :: b :: rest) = .error (.illegalBool b)) ∧
  ∀ (s : State) (d : Bytes) (e : DecodeError) (rest : List HostInput), decode d = .error e →
    s.inputs = .command d :: rest →
    Machine.step s = .next (({ s with inputs := rest } : State).respond [0x07#8])

/-! ## The step and reset (spec/10_state.md, spec/70_reset_and_hazards.md) -/

/-- R20, R67: when the next descriptor decodes to `i`, a step is `exec i` on the state without that
input; with no input presented the engine is idle and holds its state (R357).  That the inputs stand in
the state is the model's choice (log 1). -/
def Obligations.StepRunsTheDecodedCommand : Prop :=
  (∀ (s : State) (d : Bytes) (i : Instr) (rest : List HostInput),
    s.inputs = .command d :: rest → decode d = .ok i →
    Machine.step s = Machine.exec i { s with inputs := rest }) ∧
  ∀ s : State, s.inputs = [] → Machine.step s = .next s

/-- R370, R371: the state after reset, and after a later reset signal from any state, has every reset
value the spec gives; the signal is answered by no response.  That the streams stay is the model's
choice (log 1, log 9). -/
def Obligations.ResetGivesTheResetValues : Prop :=
  State.reset.AtReset ∧
  ∀ (s : State) (rest : List HostInput), s.inputs = .reset :: rest →
    ∃ t, Machine.step s = .next t ∧ t.AtReset ∧ t.inputs = rest ∧ t.responses = s.responses

/-- R372: what every command that needs a packet, a key or a session answers just after reset. -/
def Obligations.CommandsJustAfterReset : Prop :=
  ∀ s : State, s.AtReset →
    (∀ i : Instr, needsRtpPacket i = true ∨ needsRtcpPacket i = true ∨ needsMasterKey i = true →
      Machine.exec i s = .next (s.respond [0x07#8])) ∧
    (∀ i : Instr, opcodeIn i 0x74 0x77 = true → Machine.exec i s = .next (s.respond [0x04#8])) ∧
    Machine.exec .sesGetRoc s = .next (s.respond [0x00#8, 0x00#8, 0x00#8, 0x00#8, 0x00#8]) ∧
    (∃ v : BitVec 16, v.toNat < 0x8000 ∧
      Machine.exec .sesGetSeq s = .next (s.respond (0x00#8 :: beBytes 2 v.toNat))) ∧
    ∀ (pt : BitVec 8) (seq : BitVec 16) (ts ssrc : BitVec 32) (payload : Bytes),
      pt.toNat ≤ 127 → payload.length ≤ 1488 →
      ∃ t, Machine.exec (.rtpNew pt seq ts ssrc payload) s = .next t ∧
        t.responses = s.responses ++ [[0x00#8]] ∧
        Machine.exec .rtpGetVol t = .next (t.respond [0x00#8, 0x00#8, 0x00#8, 0x00#8])

/-! ## Rules of the whole machine (spec/60_exceptions.md, spec/10_state.md) -/

/-- R20, R106, R344: every command in every state completes with exactly one response: `OK` and its
results, or one status byte of 01..07; it takes no input and draws no random value (R33). -/
def Obligations.EveryCommandAnswersOnce : Prop :=
  ∀ (i : Instr) (s : State), ∃ t, Machine.exec i s = .next t ∧
    t.inputs = s.inputs ∧ t.draws = s.draws ∧
    ((∃ results, t.responses = s.responses ++ [0x00#8 :: results]) ∨
      ∃ k : Byte, 1 ≤ k.toNat ∧ k.toNat ≤ 7 ∧ t.responses = s.responses ++ [[k]])

/-- R343: a command whose status is not `OK` leaves every register and every buffer as it was, hidden
bytes included, and returns no result values. -/
def Obligations.FailedCommandChangesNothing : Prop :=
  ∀ (i : Instr) (s t : State) (k : Byte) (results : Bytes), Machine.exec i s = .next t →
    t.responses = s.responses ++ [k :: results] → k ≠ 0x00#8 →
    results = [] ∧ t.pkt = s.pkt ∧ t.rtcp = s.rtcp ∧ t.kdf = s.kdf ∧ t.ses = s.ses

/-- R346: the commands that alone can return each status. -/
def Obligations.StatusesOfEachKindOfCommand : Prop :=
  ∀ (i : Instr) (s t : State) (k : Byte), Machine.exec i s = .next t →
    t.responses = s.responses ++ [[k]] →
    (k = 0x03#8 → (∃ wire, i = .sesDecode wire) ∧ s.ses.useEkt = true) ∧
    (k = 0x06#8 → (∃ id data, i = .rtpSetGenExt id data) ∨ ∃ vad dbov, i = .rtpSetVol vad dbov) ∧
    (k = 0x05#8 → decrypts i = true) ∧
    (k = 0x04#8 → usesCipher i = true) ∧
    (k = 0x01#8 → readsOnly i = false)

/-- R342: `IllegalCommand` has exactly these causes.  (`SES.ENCODE` and `SES.ENCRTCP` check the
cipher first, R345.) -/
def Obligations.IllegalCommandHasExactlyTheseCauses : Prop :=
  (∀ (s : State) (d : Bytes) (e : DecodeError) (rest : List HostInput), decode d = .error e →
    s.inputs = .command d :: rest →
    Machine.step s = .next (({ s with inputs := rest } : State).respond [0x07#8])) ∧
  ∀ (i : Instr) (s : State), Machine.exec i s = .next (s.respond [0x07#8]) ↔
    (needsRtpPacket i = true ∧ s.pkt.valid = false) ∨
    (i = .sesEncode ∧ s.ses.cipher ≠ 0x0000#16 ∧ s.pkt.valid = false) ∨
    (needsRtcpPacket i = true ∧ s.rtcp.valid = false) ∨
    (i = .sesEncRtcp ∧ s.ses.cipher ≠ 0x0000#16 ∧ s.rtcp.valid = false) ∨
    (needsMasterKey i = true ∧ s.kdf.valid = false) ∨
    ((∃ cipher useEkt key salt, i = .sesSetSrtp cipher useEkt key salt) ∧ s.ses.state = .keyed) ∨
    ∃ list, i = .rtpSetCsrc list ∧ list.length % 4 ≠ 0

/-- Every step keeps the registers legal: the stores in canonical form and within their size, the
live lengths within R24 and R28, the pending EKT tag a tail of R100, the key lengths, salts and
cipher of R30 and R31, one slot per URI (R282).  The canonical form and the bounds `URI_MAX` and
`EKT_MAX` are the model's choices (log 4, log 2). -/
def Obligations.StepKeepsTheInvariant : Prop :=
  ∀ s t : State, s.Inv → Machine.step s = .next t → t.Inv

/-- The invariant holds after reset. -/
def Obligations.ResetHasTheInvariant : Prop := State.reset.Inv

/-- R32: `SES.STATE` leaves Fresh only by a successful `SES.SETSRTP` and returns to Fresh only by
reset. -/
def Obligations.SessionStateMachine : Prop :=
  ∀ s t : State, Machine.step s = .next t →
    (s.ses.state = .fresh → t.ses.state = .keyed →
      ∃ d rest cipher useEkt key salt, s.inputs = .command d :: rest ∧
        decode d = .ok (.sesSetSrtp cipher useEkt key salt) ∧
        t.responses = s.responses ++ [[0x00#8]]) ∧
    (s.ses.state = .keyed → t.ses.state = .fresh → ∃ rest, s.inputs = .reset :: rest)

/-- R286: `SES.GETROC` returns `SES.ROC`; a step changes `SES.ROC` only by the rewriting encode that
wraps `SES.SEQ` (R287 step 6) or by reset. -/
def Obligations.RolloverCounterChangesOnlyByEncode : Prop :=
  (∀ s : State, Machine.exec .sesGetRoc s =
    .next (s.respond (0x00#8 :: beBytes 4 s.ses.roc.toNat))) ∧
  ∀ s t : State, Machine.step s = .next t → t.ses.roc ≠ s.ses.roc →
    (∃ rest, s.inputs = .reset :: rest) ∨
    ((∃ d rest, s.inputs = .command d :: rest ∧ decode d = .ok .sesEncode) ∧
      s.ses.rewrite = true ∧ s.ses.seq = 0xFFFF#16 ∧ t.ses.seq = 0x0000#16 ∧
      t.ses.roc = s.ses.roc + 1#32)

/-- The getters (R133 to R140, R165, R167, R168, R183, R186, R202, R203, R214 to R219, R285, R286),
`RTP.STORE` (R132), `RTCP.STORE` (R213), `KDF.DERIVE` (R244) and `KDF.DERIVESTREAM` (R247) write
nothing, nor does a failing one (R343): only their response is added. -/
def Obligations.ReadingCommandsWriteNothing : Prop :=
  ∀ (i : Instr) (s : State), readsOnly i = true → ∃ r, Machine.exec i s = .next (s.respond r)

/-- The units each class of commands leaves alone (R60 and the "Writes" lines of the command rules);
no command empties the RTP or the RTCP slot (R351), and only three write the pending EKT tag
(R385). -/
def Obligations.CommandsWriteOnlyTheirUnits : Prop :=
  ∀ (i : Instr) (s t : State), Machine.exec i s = .next t →
    (opcodeIn i 0x10 0x4D = true → t.rtcp = s.rtcp ∧ t.kdf = s.kdf ∧ t.ses = s.ses) ∧
    (opcodeIn i 0x50 0x5F = true → t.pkt = s.pkt ∧ t.kdf = s.kdf ∧ t.ses = s.ses) ∧
    (opcodeIn i 0x60 0x62 = true → t.pkt = s.pkt ∧ t.rtcp = s.rtcp ∧ t.ses = s.ses) ∧
    (opcodeIn i 0x70 0x70 = true → t.pkt = s.pkt ∧ t.rtcp = s.rtcp ∧ t.ses.seq = s.ses.seq ∧
      t.ses.roc = s.ses.roc ∧ t.ses.rewrite = s.ses.rewrite ∧ t.ses.extMap = s.ses.extMap) ∧
    (opcodeIn i 0x71 0x73 = true → t.pkt = s.pkt ∧ t.rtcp = s.rtcp ∧ t.kdf = s.kdf) ∧
    (i = .sesEncode → t.rtcp = s.rtcp ∧ t.kdf = s.kdf ∧
      ∃ seq roc, t.ses = { s.ses with seq := seq, roc := roc }) ∧
    (opcodeIn i 0x75 0x75 = true → t.rtcp = s.rtcp ∧ t.kdf = s.kdf ∧ t.ses = s.ses) ∧
    (opcodeIn i 0x76 0x77 = true → t.pkt = s.pkt ∧ t.kdf = s.kdf ∧ t.ses = s.ses) ∧
    (s.pkt.valid = true → t.pkt.valid = true) ∧ (s.rtcp.valid = true → t.rtcp.valid = true) ∧
    (opcodeIn i 0x10 0x11 = false → opcodeIn i 0x75 0x75 = false →
      t.pkt.ekt = s.pkt.ekt ∧ t.pkt.ektLen = s.pkt.ektLen)

/-! ## The RTP slot and its fixed header (spec/40_rtp_fields.md) -/

/-- R130 `RTP.NEW`. -/
def Obligations.RtpNewBuildsThePacket : Prop :=
  ∀ (pt : BitVec 8) (seq : BitVec 16) (ts ssrc : BitVec 32) (payload : Bytes) (s : State),
    if 127 < pt.toNat then
      Machine.exec (.rtpNew pt seq ts ssrc payload) s = .next (s.respond [0x02#8])
    else if 1500 < 12 + payload.length then
      Machine.exec (.rtpNew pt seq ts ssrc payload) s = .next (s.respond [0x01#8])
    else ∃ b e,
      Machine.exec (.rtpNew pt seq ts ssrc payload) s =
        .next (({ s with pkt := { valid := true, buf := b, len := 12 + payload.length,
                                  ekt := e, ektLen := 1 } } : State).respond [0x00#8]) ∧
      Memory.patched b s.pkt.buf 0 ([0x80#8, pt] ++ beBytes 2 seq.toNat ++ beBytes 4 ts.toNat ++
        beBytes 4 ssrc.toNat ++ payload) ∧
      Memory.patched e s.pkt.ekt 0 [0x00#8]

/-- R131 `RTP.LOAD` and R132 `RTP.STORE`: the bytes loaded are the packet, the bytes stored out are
the packet, and loading what was stored out leaves them unchanged. -/
def Obligations.RtpLoadAndStore : Prop :=
  (∀ (data : Bytes) (s : State),
    if 1500 < data.length then Machine.exec (.rtpLoad data) s = .next (s.respond [0x01#8])
    else if data.length < 12 then Machine.exec (.rtpLoad data) s = .next (s.respond [0x02#8])
    else ∃ b e,
      Machine.exec (.rtpLoad data) s =
        .next (({ s with pkt := { valid := true, buf := b, len := data.length, ekt := e,
                                  ektLen := 1 } } : State).respond [0x00#8]) ∧
      Memory.patched b s.pkt.buf 0 data ∧ Memory.patched e s.pkt.ekt 0 [0x00#8]) ∧
  ∀ s : State,
    if s.pkt.valid = false then Machine.exec .rtpStore s = .next (s.respond [0x07#8])
    else
      Machine.exec .rtpStore s =
        .next (s.respond (0x00#8 :: encodeOperands [.bytes (Memory.slice s.pkt.buf 0 s.pkt.len)])) ∧
      (12 ≤ s.pkt.len → s.pkt.len ≤ 1500 → ∃ b e,
        Machine.exec (.rtpLoad (Memory.slice s.pkt.buf 0 s.pkt.len)) s =
          .next (({ s with pkt := { s.pkt with buf := b, ekt := e, ektLen := 1 } } : State).respond
            [0x00#8]) ∧
        (∀ a, Memory.read b a = Memory.read s.pkt.buf a) ∧ Memory.read e 0 = 0x00#8)

/-- R133 to R140: the eight field getters, each response written out from the octets of the header. -/
def Obligations.FixedHeaderGetters : Prop :=
  ∀ s : State,
    let o := Memory.read s.pkt.buf
    if s.pkt.valid = false then
      ∀ i : Instr, opcodeIn i 0x20 0x27 = true → Machine.exec i s = .next (s.respond [0x07#8])
    else
      Machine.exec .rtpGetP s = .next (s.respond [0x00#8, (o 0 >>> 5) &&& 1#8]) ∧
      Machine.exec .rtpGetX s = .next (s.respond [0x00#8, (o 0 >>> 4) &&& 1#8]) ∧
      Machine.exec .rtpGetCc s = .next (s.respond [0x00#8, o 0 &&& 0x0F#8]) ∧
      Machine.exec .rtpGetM s = .next (s.respond [0x00#8, o 1 >>> 7]) ∧
      Machine.exec .rtpGetPt s = .next (s.respond [0x00#8, o 1 &&& 0x7F#8]) ∧
      Machine.exec .rtpGetSeq s = .next (s.respond [0x00#8, o 2, o 3]) ∧
      Machine.exec .rtpGetTs s = .next (s.respond [0x00#8, o 4, o 5, o 6, o 7]) ∧
      Machine.exec .rtpGetSsrc s = .next (s.respond [0x00#8, o 8, o 9, o 10, o 11])

/-- R141 to R148: the eight setters write the bits or bytes of their field and nothing else. -/
def Obligations.FixedHeaderSetters : Prop :=
  ∀ (v : Bool) (n : BitVec 8) (h : BitVec 16) (w : BitVec 32) (s : State),
    let o := Memory.read s.pkt.buf
    let bit (k : Nat) : Byte := if v then 1#8 <<< k else 0#8
    let word : Bytes :=
      [w.extractLsb' 24 8, w.extractLsb' 16 8, w.extractLsb' 8 8, w.extractLsb' 0 8]
    let writes (i : Instr) (a : Nat) (bs : Bytes) : Prop :=
      ∃ b, Machine.exec i s =
          .next (({ s with pkt := { s.pkt with buf := b } } : State).respond [0x00#8]) ∧
        Memory.patched b s.pkt.buf a bs
    if s.pkt.valid = false then
      ∀ i : Instr, opcodeIn i 0x28 0x2F = true → Machine.exec i s = .next (s.respond [0x07#8])
    else
      writes (.rtpSetP v) 0 [(o 0 &&& 0xDF#8) ||| bit 5] ∧
      writes (.rtpSetX v) 0 [(o 0 &&& 0xEF#8) ||| bit 4] ∧
      writes (.rtpSetM v) 1 [(o 1 &&& 0x7F#8) ||| bit 7] ∧
      (if 15 < n.toNat then Machine.exec (.rtpSetCc n) s = .next (s.respond [0x02#8])
        else writes (.rtpSetCc n) 0 [(o 0 &&& 0xF0#8) ||| n]) ∧
      (if 127 < n.toNat then Machine.exec (.rtpSetPt n) s = .next (s.respond [0x02#8])
        else writes (.rtpSetPt n) 1 [(o 1 &&& 0x80#8) ||| n]) ∧
      writes (.rtpSetSeq h) 2 [h.extractLsb' 8 8, h.extractLsb' 0 8] ∧
      writes (.rtpSetTs w) 4 word ∧
      writes (.rtpSetSsrc w) 8 word

/-- R151: after a setter that returned `OK`, its getter returns the operand and the other seven
getters return what they returned before. -/
def Obligations.FixedHeaderGetAfterSet : Prop :=
  ∀ s t : State,
    let others (gs : List Instr) : Prop := ∀ g ∈ gs, ∀ r,
      Machine.exec g s = .next (s.respond r) → Machine.exec g t = .next (t.respond r)
    let sets (i g : Instr) (v : Operand) (gs : List Instr) : Prop :=
      Machine.exec i s = .next t → t.responses = s.responses ++ [[0x00#8]] →
        Machine.exec g t = .next (t.respond (0x00#8 :: encodeOperands [v])) ∧ others gs
    (∀ v, sets (.rtpSetP v) .rtpGetP (.bool v)
      [.rtpGetX, .rtpGetCc, .rtpGetM, .rtpGetPt, .rtpGetSeq, .rtpGetTs, .rtpGetSsrc]) ∧
    (∀ v, sets (.rtpSetX v) .rtpGetX (.bool v)
      [.rtpGetP, .rtpGetCc, .rtpGetM, .rtpGetPt, .rtpGetSeq, .rtpGetTs, .rtpGetSsrc]) ∧
    (∀ v, sets (.rtpSetCc v) .rtpGetCc (.u8 v)
      [.rtpGetP, .rtpGetX, .rtpGetM, .rtpGetPt, .rtpGetSeq, .rtpGetTs, .rtpGetSsrc]) ∧
    (∀ v, sets (.rtpSetM v) .rtpGetM (.bool v)
      [.rtpGetP, .rtpGetX, .rtpGetCc, .rtpGetPt, .rtpGetSeq, .rtpGetTs, .rtpGetSsrc]) ∧
    (∀ v, sets (.rtpSetPt v) .rtpGetPt (.u8 v)
      [.rtpGetP, .rtpGetX, .rtpGetCc, .rtpGetM, .rtpGetSeq, .rtpGetTs, .rtpGetSsrc]) ∧
    (∀ v, sets (.rtpSetSeq v) .rtpGetSeq (.u16 v)
      [.rtpGetP, .rtpGetX, .rtpGetCc, .rtpGetM, .rtpGetPt, .rtpGetTs, .rtpGetSsrc]) ∧
    (∀ v, sets (.rtpSetTs v) .rtpGetTs (.u32 v)
      [.rtpGetP, .rtpGetX, .rtpGetCc, .rtpGetM, .rtpGetPt, .rtpGetSeq, .rtpGetSsrc]) ∧
    ∀ v, sets (.rtpSetSsrc v) .rtpGetSsrc (.u32 v)
      [.rtpGetP, .rtpGetX, .rtpGetCc, .rtpGetM, .rtpGetPt, .rtpGetSeq, .rtpGetTs]

/-! ## RTP sections (spec/41_rtp_sections.md) -/

/-- R160: the layout functions, from the octets of the live buffer, and their ranges. -/
def Obligations.LayoutFunctions : Prop :=
  ∀ p : Pkt,
    let o := Memory.read p.buf
    let cc := (o 0 &&& 0x0F#8).toNat
    let words := (o (12 + 4 * cc + 2)).toNat * 256 + (o (12 + 4 * cc + 3)).toNat
    p.p = (o 0).getLsbD 5 ∧ p.x = (o 0).getLsbD 4 ∧ p.cc.toNat = cc ∧
    p.extOff = 12 + 4 * cc ∧ 12 ≤ p.extOff ∧ p.extOff ≤ 72 ∧
    p.extWords = words ∧
    p.payOff = (if p.x = true then 12 + 4 * cc + 4 + 4 * words else 12 + 4 * cc) ∧
    12 ≤ p.payOff ∧ p.payOff ≤ 262216 ∧
    p.padLen = (if p.p = true then (o (p.len - 1)).toNat else 0) ∧
    p.payEnd = (p.len : Int) - (p.padLen : Int)

/-- R162 `RTP.SETCSRC`. -/
def Obligations.SetCsrcWritesTheList : Prop :=
  ∀ (list : Bytes) (s : State),
    let o := Memory.read s.pkt.buf
    let n := list.length / 4
    if s.pkt.valid = false ∨ list.length % 4 ≠ 0 then
      Machine.exec (.rtpSetCsrc list) s = .next (s.respond [0x07#8])
    else if 15 < n then Machine.exec (.rtpSetCsrc list) s = .next (s.respond [0x02#8])
    else ∃ b,
      Machine.exec (.rtpSetCsrc list) s =
        .next (({ s with pkt := { s.pkt with buf := b, len := 12 + 4 * n } } : State).respond
          [0x00#8]) ∧
      Memory.patchedHead b s.pkt.buf ((o 0 &&& 0xC0#8) ||| BitVec.ofNat 8 n) 12 list

/-- R163 `RTP.SETHDREXT`. -/
def Obligations.SetHdrExtWritesTheBlock : Prop :=
  ∀ (profile : BitVec 16) (data : Bytes) (s : State),
    let o := Memory.read s.pkt.buf
    let off := s.pkt.extOff
    if s.pkt.valid = false then
      Machine.exec (.rtpSetHdrExt profile data) s = .next (s.respond [0x07#8])
    else if s.pkt.len < off ∨ data.length % 4 ≠ 0 then
      Machine.exec (.rtpSetHdrExt profile data) s = .next (s.respond [0x02#8])
    else if 1500 < off + 4 + data.length then
      Machine.exec (.rtpSetHdrExt profile data) s = .next (s.respond [0x01#8])
    else ∃ b,
      Machine.exec (.rtpSetHdrExt profile data) s =
        .next (({ s with pkt := { s.pkt with buf := b, len := off + 4 + data.length } } :
          State).respond [0x00#8]) ∧
      Memory.patchedHead b s.pkt.buf ((o 0 &&& 0xCF#8) ||| 0x10#8) off
        (beBytes 2 profile.toNat ++ beBytes 2 (data.length / 4) ++ data)

/-- R164 `RTP.SETPAYLOAD`, with `CHK_PAY` of R161 written out. -/
def Obligations.SetPayloadWritesThePayload : Prop :=
  ∀ (data : Bytes) (s : State),
    let o := Memory.read s.pkt.buf
    let off := s.pkt.payOff
    if s.pkt.valid = false then
      Machine.exec (.rtpSetPayload data) s = .next (s.respond [0x07#8])
    else if (s.pkt.x = true ∧ s.pkt.len < s.pkt.extOff + 4) ∨ s.pkt.len < off then
      Machine.exec (.rtpSetPayload data) s = .next (s.respond [0x02#8])
    else if 1500 < off + data.length then
      Machine.exec (.rtpSetPayload data) s = .next (s.respond [0x01#8])
    else ∃ b,
      Machine.exec (.rtpSetPayload data) s =
        .next (({ s with pkt := { s.pkt with buf := b, len := off + data.length } } :
          State).respond [0x00#8]) ∧
      Memory.patchedHead b s.pkt.buf (o 0 &&& 0xDF#8) off data

/-- R166 `RTP.SETPADDING`. -/
def Obligations.SetPaddingAligns : Prop :=
  ∀ (mult : BitVec 16) (s : State),
    let o := Memory.read s.pkt.buf
    let r := s.pkt.len % mult.toNat
    let pad := mult.toNat - r
    if s.pkt.valid = false then
      Machine.exec (.rtpSetPadding mult) s = .next (s.respond [0x07#8])
    else if mult = 0#16 then
      Machine.exec (.rtpSetPadding mult) s = .next (s.respond [0x02#8])
    else if r = 0 then
      Machine.exec (.rtpSetPadding mult) s = .next (s.respond [0x00#8])
    else if 255 < pad then
      Machine.exec (.rtpSetPadding mult) s = .next (s.respond [0x02#8])
    else if 1500 < s.pkt.len + pad then
      Machine.exec (.rtpSetPadding mult) s = .next (s.respond [0x01#8])
    else ∃ b,
      Machine.exec (.rtpSetPadding mult) s =
        .next (({ s with pkt := { s.pkt with buf := b, len := s.pkt.len + pad } } :
          State).respond [0x00#8]) ∧
      (s.pkt.len + pad) % mult.toNat = 0 ∧
      Memory.patchedHead b s.pkt.buf (o 0 ||| 0x20#8) s.pkt.len
        (List.replicate (pad - 1) 0x00#8 ++ [BitVec.ofNat 8 pad])

/-- R165 `RTP.GETPAYLOAD`, R167 `RTP.GETCSRC`, R168 `RTP.GETHDREXT`. -/
def Obligations.SectionGetters : Prop :=
  ∀ s : State,
    let p := s.pkt
    let bytes (a z : Nat) : Bytes := Memory.slice p.buf a (z - a)
    if p.valid = false then
      ∀ i : Instr, opcodeIn i 0x34 0x36 = true → Machine.exec i s = .next (s.respond [0x07#8])
    else
      (if p.x = true ∧ p.len < p.extOff + 4 then
          Machine.exec .rtpGetPayload s = .next (s.respond [0x02#8])
        else if p.payEnd ≤ (p.payOff : Int) then
          Machine.exec .rtpGetPayload s = .next (s.respond [0x00#8, 0x00#8, 0x00#8])
        else Machine.exec .rtpGetPayload s =
          .next (s.respond (0x00#8 :: encodeOperands [.bytes (bytes p.payOff (p.len - p.padLen))]))) ∧
      (if p.len < p.extOff then Machine.exec .rtpGetCsrc s = .next (s.respond [0x02#8])
        else Machine.exec .rtpGetCsrc s =
          .next (s.respond (0x00#8 :: encodeOperands [.bytes (bytes 12 p.extOff)]))) ∧
      (if p.x = false then
          Machine.exec .rtpGetHdrExt s =
            .next (s.respond [0x00#8, 0x00#8, 0x00#8, 0x00#8, 0x00#8, 0x00#8])
        else if p.len < p.extOff + 4 ∨ p.len < p.payOff then
          Machine.exec .rtpGetHdrExt s = .next (s.respond [0x02#8])
        else Machine.exec .rtpGetHdrExt s =
          .next (s.respond ([0x00#8, 0x01#8] ++ Memory.slice p.buf p.extOff 2 ++
            encodeOperands [.bytes (bytes (p.extOff + 4) p.payOff)])))

/-- R151 for the sections: the getter returns what the section setter stored. -/
def Obligations.SectionGetAfterSet : Prop :=
  ∀ s t : State,
    let sets (i g : Instr) (r : Bytes) : Prop :=
      Machine.exec i s = .next t → t.responses = s.responses ++ [[0x00#8]] →
        Machine.exec g t = .next (t.respond (0x00#8 :: r))
    (∀ list, sets (.rtpSetCsrc list) .rtpGetCsrc (encodeOperands [.bytes list])) ∧
    (∀ profile data, sets (.rtpSetHdrExt profile data) .rtpGetHdrExt
      (encodeOperands [.bool true, .u16 profile, .bytes data])) ∧
    ∀ data, sets (.rtpSetPayload data) .rtpGetPayload (encodeOperands [.bytes data])

/-! ## Header extensions and the audio level (spec/42_hdrext.md) -/

/-- R182 `RTP.SETGENEXT`: its checks in order, then the one-element block of R85 padded to a 32-bit
boundary. -/
def Obligations.SetGenExtWritesOneElement : Prop :=
  ∀ (id : BitVec 8) (data : Bytes) (s : State),
    let p := s.pkt
    let o := Memory.read p.buf
    let i : Instr := .rtpSetGenExt id data
    let e := ((id <<< 4) ||| BitVec.ofNat 8 (data.length - 1)) :: data ++
      List.replicate ((4 - (data.length + 1) % 4) % 4) 0x00#8
    if p.valid = false then Machine.exec i s = .next (s.respond [0x07#8])
    else if id.toNat < 1 ∨ 14 < id.toNat ∨ data.length < 1 ∨ 16 < data.length then
      Machine.exec i s = .next (s.respond [0x02#8])
    else if p.x = true ∧ (p.len < p.extOff + 4 ∨ p.len < p.payOff) then
      Machine.exec i s = .next (s.respond [0x02#8])
    else if p.x = true ∧ (p.profile &&& 0xFFF0#16 = 0x1000#16 ∨
        p.profile = 0xBEDE#16 ∧ scan none 0 p.extData ≠ none) then
      Machine.exec i s = .next (s.respond [0x06#8])
    else if p.len < p.extOff then Machine.exec i s = .next (s.respond [0x02#8])
    else ∃ b,
      Machine.exec i s =
        .next (({ s with pkt := { p with buf := b, len := p.extOff + 4 + e.length } } :
          State).respond [0x00#8]) ∧
      Memory.patchedHead b p.buf ((o 0 &&& 0xCF#8) ||| 0x10#8) p.extOff
        ([0xBE#8, 0xDE#8, 0x00#8, BitVec.ofNat 8 (e.length / 4)] ++ e)

/-- R183 `RTP.GETGENEXT`; R180, what the scan answers: a padding byte is passed over, id 15 and an
element that runs past the block end the scan, the first element with the wanted id answers and any
other is passed over; R181, the worked scan of vector S5. -/
def Obligations.GetGenExtScansTheBlock : Prop :=
  (∀ (id : BitVec 8) (s : State),
    let p := s.pkt
    let i : Instr := .rtpGetGenExt id
    if p.valid = false then Machine.exec i s = .next (s.respond [0x07#8])
    else if p.x = false then
      Machine.exec i s = .next (s.respond [0x00#8, 0x00#8, 0x00#8, 0x00#8])
    else if p.len < p.extOff + 4 ∨ p.len < p.payOff then
      Machine.exec i s = .next (s.respond [0x02#8])
    else if p.profile ≠ 0xBEDE#16 ∨ id.toNat < 1 ∨ 14 < id.toNat then
      Machine.exec i s = .next (s.respond [0x00#8, 0x00#8, 0x00#8, 0x00#8])
    else match scan (some id) 0 p.extData with
      | none => Machine.exec i s = .next (s.respond [0x00#8, 0x00#8, 0x00#8, 0x00#8])
      | some r => 1 ≤ r.length ∧ r.length ≤ 16 ∧
        Machine.exec i s = .next (s.respond ([0x00#8, 0x01#8] ++ encodeOperands [.bytes r]))) ∧
  (∀ (want : Option (BitVec 8)) (id len : Nat) (low : Nat) (data rest : Bytes), low < 16 →
    1 ≤ id → id ≤ 14 → len < 16 →
    scan want 0 [] = none ∧
    scan want 0 (BitVec.ofNat 8 low :: rest) = scan want 0 rest ∧
    scan want 0 (BitVec.ofNat 8 (15 * 16 + low) :: rest) = none ∧
    (rest.length < len + 1 → scan want 0 (BitVec.ofNat 8 (id * 16 + len) :: rest) = none) ∧
    (data.length = len + 1 →
      scan want 0 (BitVec.ofNat 8 (id * 16 + len) :: (data ++ rest)) =
        if want = none ∨ want = some (BitVec.ofNat 8 id) then some data else scan want 0 rest)) ∧
  let d := [0xA0#8, 0x01#8, 0xB1#8, 0x01#8, 0x02#8, 0x00#8, 0x00#8, 0xC3#8, 0x01#8, 0x02#8, 0x03#8,
    0x04#8]
  scan (some 10#8) 0 d = some [0x01#8] ∧ scan (some 11#8) 0 d = some [0x01#8, 0x02#8] ∧
    scan (some 12#8) 0 d = some [0x01#8, 0x02#8, 0x03#8, 0x04#8] ∧ scan (some 1#8) 0 d = none

/-- R151, R182, R183: after a successful `RTP.SETGENEXT`, `RTP.GETGENEXT` finds the element under its
id and no other id. -/
def Obligations.GenExtGetAfterSet : Prop :=
  ∀ (id other : BitVec 8) (data : Bytes) (s t : State),
    Machine.exec (.rtpSetGenExt id data) s = .next t → t.responses = s.responses ++ [[0x00#8]] →
    Machine.exec (.rtpGetGenExt id) t =
      .next (t.respond ([0x00#8, 0x01#8] ++ encodeOperands [.bytes data])) ∧
    (other ≠ id → Machine.exec (.rtpGetGenExt other) t =
      .next (t.respond [0x00#8, 0x00#8, 0x00#8, 0x00#8]))

/-- R185 `RTP.SETVOL`: its checks, then `RTP.SETGENEXT` of the level byte under `VOL_ID`; on a packet
without an extension block the whole next state. -/
def Obligations.SetVolStoresTheLevel : Prop :=
  ∀ (vad : Bool) (dbov : Int) (s : State), s.ses.extMap.length = 14 →
    let p := s.pkt
    let o := Memory.read p.buf
    let v := (if vad then 0x80#8 else 0x00#8) ||| BitVec.ofNat 8 dbov.natAbs
    if p.valid = false then Machine.exec (.rtpSetVol vad dbov) s = .next (s.respond [0x07#8])
    else if dbov < -127 ∨ 0 < dbov then
      Machine.exec (.rtpSetVol vad dbov) s = .next (s.respond [0x02#8])
    else match s.ses.volId with
      | none => Machine.exec (.rtpSetVol vad dbov) s = .next (s.respond [0x02#8])
      | some id =>
        Machine.exec (.rtpSetVol vad dbov) s = Machine.exec (.rtpSetGenExt id [v]) s ∧
        (p.x = false →
          if p.len < p.extOff then
            Machine.exec (.rtpSetVol vad dbov) s = .next (s.respond [0x02#8])
          else ∃ b,
            Machine.exec (.rtpSetVol vad dbov) s =
              .next (({ s with pkt := { p with buf := b, len := p.extOff + 8 } } : State).respond
                [0x00#8]) ∧
            Memory.patchedHead b p.buf ((o 0 &&& 0xCF#8) ||| 0x10#8) p.extOff
              [0xBE#8, 0xDE#8, 0x00#8, 0x01#8, id <<< 4, v, 0x00#8, 0x00#8])

/-- R186 `RTP.GETVOL`, by the answer of the scan of R183, and get after set (R151): it returns the
pair that a successful `RTP.SETVOL` stored. -/
def Obligations.GetVolReadsTheLevel : Prop :=
  (∀ s : State,
    let p := s.pkt
    if p.valid = false then Machine.exec .rtpGetVol s = .next (s.respond [0x07#8])
    else match s.ses.volId with
      | none => Machine.exec .rtpGetVol s = .next (s.respond [0x00#8, 0x00#8, 0x00#8, 0x00#8])
      | some id =>
        if p.x = true ∧ (p.len < p.extOff + 4 ∨ p.len < p.payOff) then
          Machine.exec .rtpGetVol s = .next (s.respond [0x02#8])
        else if p.x = false ∨ p.profile ≠ 0xBEDE#16 ∨ id.toNat < 1 ∨ 14 < id.toNat then
          Machine.exec .rtpGetVol s = .next (s.respond [0x00#8, 0x00#8, 0x00#8, 0x00#8])
        else match scan (some id) 0 p.extData with
          | some [b] => Machine.exec .rtpGetVol s =
            .next (s.respond [0x00#8, 0x01#8, b >>> 7, 0#8 - (b &&& 0x7F#8)])
          | _ => Machine.exec .rtpGetVol s =
            .next (s.respond [0x00#8, 0x00#8, 0x00#8, 0x00#8])) ∧
  ∀ (vad : Bool) (dbov : Int) (s t : State), Machine.exec (.rtpSetVol vad dbov) s = .next t →
    t.responses = s.responses ++ [[0x00#8]] →
    Machine.exec .rtpGetVol t =
      .next (t.respond (0x00#8 :: encodeOperands [.bool true, .bool vad, .i8 dbov]))

/-! ## OHB (spec/43_ohb.md) -/

/-- R201 `RTP.SETOHB`: the block of R92 and R93 that records the fields that differ from the header. -/
def Obligations.SetOhbAppendsTheBlock : Prop :=
  ∀ (pt : BitVec 8) (seq : BitVec 16) (m : Bool) (s : State),
    let p := s.pkt
    let i : Instr := .rtpSetOhb pt seq m
    let c : Byte := (if seq ≠ p.seq then 0x01#8 else 0#8) ||| (if pt ≠ p.pt then 0x02#8 else 0#8) |||
      (if m ≠ p.m then (if m = true then 0x0C#8 else 0x04#8) else 0#8)
    let block := (if pt ≠ p.pt then [pt] else []) ++
      (if seq ≠ p.seq then [seq.extractLsb' 8 8, seq.extractLsb' 0 8] else []) ++ [c]
    if p.valid = false then Machine.exec i s = .next (s.respond [0x07#8])
    else if 127 < pt.toNat then Machine.exec i s = .next (s.respond [0x02#8])
    else if 1500 < p.len + block.length then Machine.exec i s = .next (s.respond [0x01#8])
    else ∃ b,
      Machine.exec i s =
        .next (({ s with pkt := { p with buf := b, len := p.len + block.length } } :
          State).respond [0x00#8]) ∧
      Memory.patched b p.buf p.len block

/-- R202 `RTP.GETOHBLEN` and R203 `RTP.GETOHB`, by the last byte of the live buffer; and the round trip
of R203: after a successful `RTP.SETOHB` on a packet that passes `CHK_PAY`, `RTP.GETOHB` returns its
operands. -/
def Obligations.GetOhbReadsTheBlock : Prop :=
  (∀ s : State,
    let p := s.pkt
    let o := Memory.read p.buf
    let c := o (p.len - 1)
    let n := 1 + (if c &&& 0x01#8 = 0x01#8 then 2 else 0) + (if c &&& 0x02#8 = 0x02#8 then 1 else 0)
    let m : Byte := if c &&& 0x04#8 = 0x04#8 then (c >>> 3) &&& 0x01#8 else o 1 >>> 7
    if p.valid = false then
      Machine.exec .rtpGetOhbLen s = .next (s.respond [0x07#8]) ∧
      Machine.exec .rtpGetOhb s = .next (s.respond [0x07#8])
    else
      Machine.exec .rtpGetOhbLen s = .next (s.respond [0x00#8, BitVec.ofNat 8 n]) ∧
      (if (p.x = true ∧ p.len < p.extOff + 4) ∨ p.len < p.payOff ∨ p.len - p.payOff < n then
          Machine.exec .rtpGetOhb s = .next (s.respond [0x02#8])
        else if c &&& 0x03#8 = 0x00#8 then
          Machine.exec .rtpGetOhb s = .next (s.respond [0x00#8, o 1 &&& 0x7F#8, o 2, o 3, m])
        else if c &&& 0x03#8 = 0x01#8 then
          Machine.exec .rtpGetOhb s =
            .next (s.respond [0x00#8, o 1 &&& 0x7F#8, o (p.len - 3), o (p.len - 2), m])
        else if c &&& 0x03#8 = 0x02#8 then
          Machine.exec .rtpGetOhb s =
            .next (s.respond [0x00#8, o (p.len - 2) &&& 0x7F#8, o 2, o 3, m])
        else
          Machine.exec .rtpGetOhb s =
            .next (s.respond [0x00#8, o (p.len - 4) &&& 0x7F#8, o (p.len - 3), o (p.len - 2), m]))) ∧
  ∀ (pt : BitVec 8) (seq : BitVec 16) (m : Bool) (s t : State), s.pkt.badPay = false →
    Machine.exec (.rtpSetOhb pt seq m) s = .next t → t.responses = s.responses ++ [[0x00#8]] →
    Machine.exec .rtpGetOhb t =
      .next (t.respond (0x00#8 :: encodeOperands [.u8 pt, .u16 seq, .bool m]))

/-! ## The RTCP slot (spec/44_rtcp.md) -/

/-- R211 `RTCP.LOAD` and R212 `RTCP.LOADS`. -/
def Obligations.RtcpLoadsTakeThePacket : Prop :=
  ∀ (data : Bytes) (s : State),
    (if 1500 < data.length then Machine.exec (.rtcpLoad data) s = .next (s.respond [0x01#8])
      else if data.length < 8 then Machine.exec (.rtcpLoad data) s = .next (s.respond [0x02#8])
      else ∃ b,
        Machine.exec (.rtcpLoad data) s =
          .next (({ s with rtcp := { valid := true, buf := b, len := data.length, esp := false,
                                     esw := 0#32 } } : State).respond [0x00#8]) ∧
        Memory.patched b s.rtcp.buf 0 data) ∧
    (if 1500 < data.length then Machine.exec (.rtcpLoads data) s = .next (s.respond [0x01#8])
      else if data.length < 12 then Machine.exec (.rtcpLoads data) s = .next (s.respond [0x02#8])
      else ∃ b w,
        Machine.exec (.rtcpLoads data) s =
          .next (({ s with rtcp := { valid := true, buf := b, len := data.length - 4, esp := true,
                                     esw := w } } : State).respond [0x00#8]) ∧
        Memory.patched b s.rtcp.buf 0 (data.take (data.length - 4)) ∧
        [w.extractLsb' 24 8, w.extractLsb' 16 8, w.extractLsb' 8 8, w.extractLsb' 0 8] =
          data.drop (data.length - 4))

/-- R213 `RTCP.STORE`, and that `RTCP.LOADS` of what it returns with `ESP` = 1 restores `BUF[0:LEN]`,
`LEN` and `ESW`. -/
def Obligations.RtcpStoreAndReload : Prop :=
  ∀ s : State,
    let r := s.rtcp
    let w := [r.esw.extractLsb' 24 8, r.esw.extractLsb' 16 8, r.esw.extractLsb' 8 8,
      r.esw.extractLsb' 0 8]
    if r.valid = false then Machine.exec .rtcpStore s = .next (s.respond [0x07#8])
    else if r.esp = false then
      Machine.exec .rtcpStore s =
        .next (s.respond (0x00#8 :: encodeOperands [.bytes (Memory.slice r.buf 0 r.len)]))
    else
      Machine.exec .rtcpStore s =
        .next (s.respond (0x00#8 :: encodeOperands [.bytes (Memory.slice r.buf 0 r.len ++ w)])) ∧
      (8 ≤ r.len → r.len + 4 ≤ 1500 → ∃ b,
        Machine.exec (.rtcpLoads (Memory.slice r.buf 0 r.len ++ w)) s =
          .next (({ s with rtcp := { r with buf := b } } : State).respond [0x00#8]) ∧
        ∀ a, Memory.read b a = Memory.read r.buf a)

/-- R214 to R219: the six RTCP getters, each response written out from the octets and the ESRTCP
word. -/
def Obligations.RtcpGetters : Prop :=
  ∀ s : State,
    let o := Memory.read s.rtcp.buf
    let w := s.rtcp.esw
    if s.rtcp.valid = false then
      ∀ i : Instr, opcodeIn i 0x53 0x58 = true → Machine.exec i s = .next (s.respond [0x07#8])
    else
      Machine.exec .rtcpGetPt s = .next (s.respond [0x00#8, o 1]) ∧
      Machine.exec .rtcpGetLenW s = .next (s.respond [0x00#8, o 2, o 3]) ∧
      Machine.exec .rtcpGetLenB s =
        .next (s.respond (0x00#8 :: beBytes 4 (((o 2).toNat * 256 + (o 3).toNat + 1) * 4))) ∧
      Machine.exec .rtcpGetSsrc s = .next (s.respond [0x00#8, o 4, o 5, o 6, o 7]) ∧
      Machine.exec .rtcpGetIndex s = .next (s.respond [0x00#8, w.extractLsb' 24 8 &&& 0x7F#8,
        w.extractLsb' 16 8, w.extractLsb' 8 8, w.extractLsb' 0 8]) ∧
      Machine.exec .rtcpGetE s = .next (s.respond [0x00#8, w.extractLsb' 24 8 >>> 7])

/-- R220 to R224: the RTCP setters; the first three write their bytes of the header, the last two the
ESRTCP word, keeping its other part. -/
def Obligations.RtcpSetters : Prop :=
  ∀ (pt : BitVec 8) (words : BitVec 16) (w : BitVec 32) (e : Bool) (s : State),
    let r := s.rtcp
    let writes (i : Instr) (a : Nat) (bs : Bytes) : Prop :=
      ∃ b, Machine.exec i s =
          .next (({ s with rtcp := { r with buf := b } } : State).respond [0x00#8]) ∧
        Memory.patched b r.buf a bs
    if r.valid = false then
      ∀ i : Instr, opcodeIn i 0x59 0x5D = true → Machine.exec i s = .next (s.respond [0x07#8])
    else
      writes (.rtcpSetPt pt) 1 [pt] ∧
      writes (.rtcpSetLenW words) 2 [words.extractLsb' 8 8, words.extractLsb' 0 8] ∧
      writes (.rtcpSetSsrc w) 4
        [w.extractLsb' 24 8, w.extractLsb' 16 8, w.extractLsb' 8 8, w.extractLsb' 0 8] ∧
      (if 0x7FFFFFFF < w.toNat then
          Machine.exec (.rtcpSetIndex w) s = .next (s.respond [0x02#8])
        else if r.esp = false ∧ 1500 < r.len + 4 then
          Machine.exec (.rtcpSetIndex w) s = .next (s.respond [0x01#8])
        else Machine.exec (.rtcpSetIndex w) s =
          .next (({ s with rtcp := { r with esp := true, esw := (r.esw &&& 0x80000000#32) ||| w } } :
            State).respond [0x00#8])) ∧
      (if r.esp = false ∧ 1500 < r.len + 4 then
          Machine.exec (.rtcpSetE e) s = .next (s.respond [0x01#8])
        else Machine.exec (.rtcpSetE e) s =
          .next (({ s with rtcp := { r with esp := true, esw := (r.esw &&& 0x7FFFFFFF#32) |||
            (if e = true then 0x80000000#32 else 0#32) } } : State).respond [0x00#8]))

/-! ## Crypto primitives (spec/49_crypto_primitives.md) -/

/-- R318, R322: byte `16 j + i` of the key stream is byte `i` of the block cipher at counter `j`: the
whole block counts for `CTR`, the last four bytes for `GCTR`. -/
def Obligations.CounterModeKeyStreams : Prop :=
  (∀ (key : Bytes) (iv : Block) (n : Nat), (ctr key iv n).length = n ∧
    ∀ i j : Nat, i < 16 → 16 * j + i < n →
      (ctr key iv n)[16 * j + i]? = (bytesOfBlock (aesEnc key (iv + BitVec.ofNat 128 j)))[i]?) ∧
  ∀ (key : Bytes) (icb : Block) (xs : Bytes), (gctr key icb xs).length = xs.length ∧
    ∀ i j : Nat, i < 16 → 16 * j + i < xs.length →
      (gctr key icb xs)[16 * j + i]? =
        some (xs.getD (16 * j + i) 0x00#8 ^^^
          (bytesOfBlock (aesEnc key
            (icb.extractLsb' 32 96 ++ (icb.extractLsb' 0 32 + BitVec.ofNat 32 j)))).getD i 0x00#8)

/-- R325, R326: opening what was sealed gives the plaintext, opening with any other tag fails, and
sealing keeps the length and gives a 16-byte tag. -/
def Obligations.GcmOpenInvertsSeal : Prop :=
  ∀ key iv aad plain : Bytes,
    let sealed := gcmSeal key iv aad plain
    sealed.1.length = plain.length ∧ sealed.2.length = 16 ∧
    gcmOpen key iv aad sealed.1 sealed.2 = some plain ∧
    ∀ tag, tag ≠ sealed.2 → gcmOpen key iv aad sealed.1 tag = none

/-! ## AES-GCM for RTP (spec/46_aead_rtp.md) -/

/-- R262 `RTP.ENCGCM`, with `CHK_KS` of R260 and the IV of R261 written out. -/
def Obligations.RtpEncGcmSealsThePayload : Prop :=
  ∀ (roc : BitVec 32) (key salt : Bytes) (s : State),
    let p := s.pkt
    let i : Instr := .rtpEncGcm roc key salt
    let iv := xorBytes ([0x00#8, 0x00#8] ++ Memory.slice p.buf 8 4 ++ beBytes 4 roc.toNat ++
      Memory.slice p.buf 2 2) salt
    let sealed := gcmSeal key iv (Memory.slice p.buf 0 p.payOff)
      (Memory.slice p.buf p.payOff (p.len - p.payOff))
    if p.valid = false then Machine.exec i s = .next (s.respond [0x07#8])
    else if (key.length ≠ 16 ∧ key.length ≠ 32) ∨ salt.length ≠ 12 ∨
        (p.x = true ∧ p.len < p.extOff + 4) ∨ p.len < p.payOff then
      Machine.exec i s = .next (s.respond [0x02#8])
    else if 1500 < p.len + 16 then Machine.exec i s = .next (s.respond [0x01#8])
    else ∃ b,
      Machine.exec i s =
        .next (({ s with pkt := { p with buf := b, len := p.len + 16 } } : State).respond
          [0x00#8]) ∧
      Memory.patched b p.buf p.payOff (sealed.1 ++ sealed.2) ∧
      p.payOff + (sealed.1 ++ sealed.2).length = p.len + 16

/-- R263 `RTP.DECGCM`: nothing is written unless the tag verifies. -/
def Obligations.RtpDecGcmOpensThePayload : Prop :=
  ∀ (roc : BitVec 32) (key salt : Bytes) (s : State),
    let p := s.pkt
    let i : Instr := .rtpDecGcm roc key salt
    let iv := xorBytes ([0x00#8, 0x00#8] ++ Memory.slice p.buf 8 4 ++ beBytes 4 roc.toNat ++
      Memory.slice p.buf 2 2) salt
    if p.valid = false then Machine.exec i s = .next (s.respond [0x07#8])
    else if (key.length ≠ 16 ∧ key.length ≠ 32) ∨ salt.length ≠ 12 ∨
        (p.x = true ∧ p.len < p.extOff + 4) ∨ p.len < p.payOff then
      Machine.exec i s = .next (s.respond [0x02#8])
    else if p.len < p.payOff + 16 then Machine.exec i s = .next (s.respond [0x05#8])
    else match gcmOpen key iv (Memory.slice p.buf 0 p.payOff)
        (Memory.slice p.buf p.payOff (p.len - 16 - p.payOff)) (Memory.slice p.buf (p.len - 16) 16) with
      | none => Machine.exec i s = .next (s.respond [0x05#8])
      | some plain => ∃ b,
        Machine.exec i s =
          .next (({ s with pkt := { p with buf := b, len := p.len - 16 } } : State).respond
            [0x00#8]) ∧
        Memory.patched b p.buf p.payOff plain ∧ p.payOff + plain.length = p.len - 16

/-- R264: `RTP.ENCGCM` and then `RTP.DECGCM` with the same operands leave `BUF[0:LEN]` and `LEN` as
they were. -/
def Obligations.RtpAeadRoundTrip : Prop :=
  ∀ (roc : BitVec 32) (key salt : Bytes) (s : State), s.pkt.valid = true →
    s.pkt.badPay = false → s.pkt.len ≤ 1484 → (key.length = 16 ∨ key.length = 32) →
    salt.length = 12 →
    ∃ t, Machine.exec (.rtpEncGcm roc key salt) s = .next t ∧
      t.responses = s.responses ++ [[0x00#8]] ∧
      ∃ b, Machine.exec (.rtpDecGcm roc key salt) t =
          .next (({ t with pkt := { s.pkt with buf := b } } : State).respond [0x00#8]) ∧
        Memory.slice b 0 s.pkt.len = Memory.slice s.pkt.buf 0 s.pkt.len

/-! ## AES-GCM for RTCP (spec/47_aead_rtcp.md) -/

/-- R272 `RTCP.ENCGCM`, with the IV and AAD of R270 written out; the index is not advanced (R271). -/
def Obligations.RtcpEncGcmSealsTheBody : Prop :=
  ∀ (key salt : Bytes) (s : State),
    let r := s.rtcp
    let i : Instr := .rtcpEncGcm key salt
    let w := r.esw ||| 0x80000000#32
    let iv := xorBytes ([0x00#8, 0x00#8] ++ Memory.slice r.buf 4 4 ++ [0x00#8, 0x00#8] ++
      beBytes 4 (r.esw &&& 0x7FFFFFFF#32).toNat) salt
    let sealed := gcmSeal key iv (Memory.slice r.buf 0 8 ++ beBytes 4 w.toNat)
      (Memory.slice r.buf 8 (r.len - 8))
    if r.valid = false then Machine.exec i s = .next (s.respond [0x07#8])
    else if (key.length ≠ 16 ∧ key.length ≠ 32) ∨ salt.length ≠ 12 then
      Machine.exec i s = .next (s.respond [0x02#8])
    else if 1500 < r.len + 16 + 4 then Machine.exec i s = .next (s.respond [0x01#8])
    else ∃ b,
      Machine.exec i s =
        .next (({ s with rtcp := { r with buf := b, len := r.len + 16, esp := true, esw := w } } :
          State).respond [0x00#8]) ∧
      Memory.patched b r.buf 8 (sealed.1 ++ sealed.2) ∧
      (8 ≤ r.len → 8 + (sealed.1 ++ sealed.2).length = r.len + 16)

/-- R273 `RTCP.DECGCM`: E must be 1, and nothing is written unless the tag verifies. -/
def Obligations.RtcpDecGcmOpensTheBody : Prop :=
  ∀ (key salt : Bytes) (s : State),
    let r := s.rtcp
    let i : Instr := .rtcpDecGcm key salt
    let iv := xorBytes ([0x00#8, 0x00#8] ++ Memory.slice r.buf 4 4 ++ [0x00#8, 0x00#8] ++
      beBytes 4 (r.esw &&& 0x7FFFFFFF#32).toNat) salt
    if r.valid = false then Machine.exec i s = .next (s.respond [0x07#8])
    else if (key.length ≠ 16 ∧ key.length ≠ 32) ∨ salt.length ≠ 12 ∨ r.esp = false ∨
        r.esw &&& 0x80000000#32 = 0#32 then
      Machine.exec i s = .next (s.respond [0x02#8])
    else if r.len < 8 + 16 then Machine.exec i s = .next (s.respond [0x05#8])
    else match gcmOpen key iv
        (Memory.slice r.buf 0 8 ++ beBytes 4 (r.esw ||| 0x80000000#32).toNat)
        (Memory.slice r.buf 8 (r.len - 16 - 8)) (Memory.slice r.buf (r.len - 16) 16) with
      | none => Machine.exec i s = .next (s.respond [0x05#8])
      | some plain => ∃ b,
        Machine.exec i s =
          .next (({ s with rtcp := { r with buf := b, len := r.len - 16 } } : State).respond
            [0x00#8]) ∧
        Memory.patched b r.buf 8 plain ∧ 8 + plain.length = r.len - 16

/-- R274: `RTCP.ENCGCM` and then `RTCP.DECGCM` leave `BUF[0:LEN]` and `LEN` as they were, E set and
`ESP` = 1; so does going through `RTCP.STORE` and `RTCP.LOADS` in between. -/
def Obligations.RtcpAeadRoundTrip : Prop :=
  ∀ (key salt : Bytes) (s : State), s.rtcp.valid = true → 8 ≤ s.rtcp.len → s.rtcp.len ≤ 1480 →
    (key.length = 16 ∨ key.length = 32) → salt.length = 12 →
    let w := s.rtcp.esw ||| 0x80000000#32
    ∃ t, Machine.exec (.rtcpEncGcm key salt) s = .next t ∧
      t.responses = s.responses ++ [[0x00#8]] ∧
      (∃ b, Machine.exec (.rtcpDecGcm key salt) t =
          .next (({ t with rtcp := { s.rtcp with buf := b, esp := true, esw := w } } :
            State).respond [0x00#8]) ∧
        Memory.slice b 0 s.rtcp.len = Memory.slice s.rtcp.buf 0 s.rtcp.len) ∧
      ∃ wire, Machine.exec .rtcpStore t =
          .next (t.respond (0x00#8 :: encodeOperands [.bytes wire])) ∧
        ∀ u : State, ∃ v, Machine.exec (.rtcpLoads wire) u = .next v ∧
          ∃ b, Machine.exec (.rtcpDecGcm key salt) v =
              .next (({ v with rtcp := { valid := true, buf := b, len := s.rtcp.len, esp := true,
                                         esw := w } } :
                State).respond [0x00#8]) ∧
            Memory.slice b 0 s.rtcp.len = Memory.slice s.rtcp.buf 0 s.rtcp.len

/-! ## Key derivation (spec/45_kdf.md) -/

/-- R241 `KDF.INIT`. -/
def Obligations.KdfInitInstallsTheMasterKey : Prop :=
  ∀ (key salt : Bytes) (s : State),
    if (key.length ≠ 16 ∧ key.length ≠ 32) ∨ 14 < salt.length then
      Machine.exec (.kdfInit key salt) s = .next (s.respond [0x02#8])
    else
      Machine.exec (.kdfInit key salt) s =
        .next (({ s with kdf := { valid := true, key := key ++ s.kdf.key.drop key.length,
                                  klen := key.length,
                                  salt := salt ++ List.replicate (14 - salt.length) 0x00#8 } } :
          State).respond [0x00#8])

/-- R244 `KDF.DERIVE` with the four steps of R242 written out, R247 `KDF.DERIVESTREAM` with the table
of R245, and R246: a shorter output is the start of a longer one. -/
def Obligations.KdfDerivesKeys : Prop :=
  ∀ (label : BitVec 8) (index : BitVec 48) (size cipher : BitVec 16) (s : State),
    let k := s.kdf
    let prf (l : Byte) (ix : BitVec 48) (n : Nat) : Bytes :=
      ctr (k.key.take k.klen)
        (blockOfBytes (k.salt.take 7 ++ xorBytes (k.salt.drop 7) (l :: beBytes 6 ix.toNat) ++
          [0x00#8, 0x00#8])) n
    let stream (n : Nat) : Bytes := encodeOperands [.bytes (prf 0#8 0#48 n), .bytes (prf 2#8 0#48 12),
      .bytes (prf 3#8 0#48 n), .bytes (prf 5#8 0#48 12)]
    (if k.valid = false then
        Machine.exec (.kdfDerive label index size) s = .next (s.respond [0x07#8])
      else if 5 < label.toNat then
        Machine.exec (.kdfDerive label index size) s = .next (s.respond [0x02#8])
      else Machine.exec (.kdfDerive label index size) s =
        .next (s.respond (0x00#8 :: encodeOperands [.bytes (prf label index size.toNat)]))) ∧
    (if k.valid = false then
        Machine.exec (.kdfDeriveStream cipher) s = .next (s.respond [0x07#8])
      else if cipher = 0x0007#16 then
        Machine.exec (.kdfDeriveStream cipher) s = .next (s.respond (0x00#8 :: stream 16))
      else if cipher = 0x0008#16 then
        Machine.exec (.kdfDeriveStream cipher) s = .next (s.respond (0x00#8 :: stream 32))
      else Machine.exec (.kdfDeriveStream cipher) s = .next (s.respond [0x04#8])) ∧
    ∀ (l : Byte) (ix : BitVec 48) (m n : Nat), m ≤ n → prf l ix m = (prf l ix n).take m

/-! ## The session (spec/48_session.md) -/

/-- R281 `SES.SETSRTP`: its checks in order, then the master key in the KDF unit and the keys and
salts it derives in the session. -/
def Obligations.SetSrtpInstallsTheSession : Prop :=
  ∀ (cipher : BitVec 16) (useEkt : Bool) (key salt : Bytes) (s : State),
    let i : Instr := .sesSetSrtp cipher useEkt key salt
    let klen := if cipher = 0x0007#16 then 16 else 32
    let k : Kdf := { valid := true, key := key ++ s.kdf.key.drop key.length, klen := key.length,
                     salt := salt ++ List.replicate (14 - salt.length) 0x00#8 }
    if s.ses.state = .keyed then Machine.exec i s = .next (s.respond [0x07#8])
    else if (key.length ≠ 16 ∧ key.length ≠ 32) ∨ 14 < salt.length then
      Machine.exec i s = .next (s.respond [0x02#8])
    else if cipher ≠ 0x0007#16 ∧ cipher ≠ 0x0008#16 then
      Machine.exec i s = .next (s.respond [0x04#8])
    else
      Machine.exec i s =
        .next (({ s with
          kdf := k,
          ses := { s.ses with
            state := .keyed, cipher := cipher, useEkt := useEkt, klen := klen,
            rtpKey := k.prf 0 0 klen ++ s.ses.rtpKey.drop klen,
            rtcpKey := k.prf 3 0 klen ++ s.ses.rtcpKey.drop klen,
            rtpSalt := k.prf 2 0 12, rtcpSalt := k.prf 5 0 12 } } : State).respond [0x00#8])

/-- R282 `SES.SETEXTMAP`: the slot holds the URI, every other slot that held it is emptied, the rest
stay; R184: mapping the audio-level URI makes its slot `VOL_ID`.  The bound 255 is the model's choice of
`URI_MAX` (log 2). -/
def Obligations.SetExtMapMovesTheUri : Prop :=
  ∀ (id : BitVec 8) (uri : Bytes) (s : State), s.ses.extMap.length = 14 →
    if id.toNat < 1 ∨ 14 < id.toNat ∨ uri.length < 1 ∨ 255 < uri.length then
      Machine.exec (.sesSetExtMap id uri) s = .next (s.respond [0x02#8])
    else ∃ map,
      Machine.exec (.sesSetExtMap id uri) s =
        .next (({ s with ses := { s.ses with extMap := map } } : State).respond [0x00#8]) ∧
      map.length = 14 ∧
      (∀ j, j < 14 → map.getD j [] =
        if j + 1 = id.toNat then uri
        else if s.ses.extMap.getD j [] = uri then [] else s.ses.extMap.getD j []) ∧
      (uri = Config.audioLevelUri → ({ s.ses with extMap := map } : Ses).volId = some id)

/-- R283 `SES.SETREWRITE`, R284 `SES.SETSEQ`, R285 `SES.GETSEQ`: in every state, with nothing else
changed. -/
def Obligations.SequenceRegisters : Prop :=
  ∀ (on : Bool) (seq : BitVec 16) (s : State),
    Machine.exec (.sesSetRewrite on) s =
      .next (({ s with ses := { s.ses with rewrite := on } } : State).respond [0x00#8]) ∧
    Machine.exec (.sesSetSeq seq) s =
      .next (({ s with ses := { s.ses with seq := seq } } : State).respond [0x00#8]) ∧
    Machine.exec .sesGetSeq s =
      .next (s.respond [0x00#8, s.ses.seq.extractLsb' 8 8, s.ses.seq.extractLsb' 0 8])

/-- R287 `SES.ENCODE`: the wire packet of R89, byte for byte, and the counters: R12, the 48-bit pair
(ROC, SEQ) increases by exactly 1. -/
def Obligations.SesEncodeBuildsTheWirePacket : Prop :=
  ∀ s : State, s.Inv →
    let p := s.pkt
    let e := s.ses
    let nseq := if e.rewrite = true then e.seq else p.seq
    let ohb : Bytes := if nseq ≠ p.seq then [Memory.read p.buf 2, Memory.read p.buf 3, 0x01#8]
      else [0x00#8]
    let tail := if e.useEkt = true then Memory.slice p.ekt 0 p.ektLen else []
    let total := p.len + ohb.length + 16 + tail.length
    let head := Memory.slice p.buf 0 2 ++ beBytes 2 nseq.toNat ++ Memory.slice p.buf 4 (p.payOff - 4)
    let iv := xorBytes ([0x00#8, 0x00#8] ++ Memory.slice p.buf 8 4 ++ beBytes 4 e.roc.toNat ++
      beBytes 2 nseq.toNat) e.rtpSalt
    let sealed := gcmSeal (e.rtpKey.take e.klen) iv head
      (Memory.slice p.buf p.payOff (p.len - p.payOff) ++ ohb)
    let wire := head ++ sealed.1 ++ sealed.2 ++ tail
    if e.cipher = 0x0000#16 then Machine.exec .sesEncode s = .next (s.respond [0x04#8])
    else if p.valid = false then Machine.exec .sesEncode s = .next (s.respond [0x07#8])
    else if (p.x = true ∧ p.len < p.extOff + 4) ∨ p.len < p.payOff then
      Machine.exec .sesEncode s = .next (s.respond [0x02#8])
    else if 1500 < total then Machine.exec .sesEncode s = .next (s.respond [0x01#8])
    else ∃ b seq roc,
      Machine.exec .sesEncode s =
        .next (({ s with pkt := { p with buf := b, len := total },
                         ses := { e with seq := seq, roc := roc } } : State).respond
          (0x00#8 :: encodeOperands [.bytes wire])) ∧
      wire.length = total ∧ Memory.patched b p.buf 0 wire ∧
      (if e.rewrite = true then
          roc.toNat * 2 ^ 16 + seq.toNat = (e.roc.toNat * 2 ^ 16 + e.seq.toNat + 1) % 2 ^ 48
        else seq = e.seq ∧ roc = e.roc)

/-- R289 `EKT_SPLIT` inside `SES.DECODE`: which tails are `MalformedEKT` (R290). -/
def Obligations.EktTailIsSplitFromItsEnd : Prop :=
  ∀ (wire : Bytes) (s : State), s.ses.cipher ≠ 0x0000#16 → s.ses.useEkt = true →
    wire.length ≤ 1500 →
    let n := wire.length
    let cmd := wire.getD (n - 1) 0x00#8
    let field := (wire.getD (n - 3) 0x00#8).toNat * 256 + (wire.getD (n - 2) 0x00#8).toNat
    let total := if cmd = 0x00#8 then 1 else field + 5
    if n < 1 ∨ (cmd ≠ 0x00#8 ∧ cmd ≠ 0x02#8) ∨ (cmd = 0x02#8 ∧ n < 3) ∨ n ≤ total then
      Machine.exec (.sesDecode wire) s = .next (s.respond [0x03#8])
    else
      ektSplit wire = .ok total ∧
      (n - total < 12 → Machine.exec (.sesDecode wire) s = .next (s.respond [0x02#8]))

/-- R290 `SES.DECODE`, for a wire buffer whose EKT tail has been found: decryption of the packet
bytes, removal of the OHB, the original PT, SEQ and M, and the received tail as the pending one.  That
the hidden bytes beyond the received packet stay is the model's choice (log 4). -/
def Obligations.SesDecodeOpensTheWirePacket : Prop :=
  ∀ (wire : Bytes) (s : State), s.Inv →
    let e := s.ses
    let i : Instr := .sesDecode wire
    if e.cipher = 0x0000#16 then Machine.exec i s = .next (s.respond [0x04#8])
    else if 1500 < wire.length then Machine.exec i s = .next (s.respond [0x01#8])
    else ∀ total, (if e.useEkt = true then ektSplit wire else .ok 0) = .ok total →
      let n := wire.length - total
      let packet := wire.take n
      let tail := if e.useEkt = true then wire.drop n else [0x00#8]
      let c := s.pkt.load packet
      let off := c.payOff
      let iv := xorBytes ([0x00#8, 0x00#8] ++ (packet.drop 8).take 4 ++ beBytes 4 e.roc.toNat ++
        (packet.drop 2).take 2) e.rtpSalt
      if n < 12 ∨ (c.x = true ∧ n < c.extOff + 4) ∨ n < off then
        Machine.exec i s = .next (s.respond [0x02#8])
      else if n < off + 16 then Machine.exec i s = .next (s.respond [0x05#8])
      else match gcmOpen (e.rtpKey.take e.klen) iv (packet.take off)
          ((packet.drop off).take (n - 16 - off)) (packet.drop (n - 16)) with
        | none => Machine.exec i s = .next (s.respond [0x05#8])
        | some plain =>
          let d := packet.take off ++ plain
          match (s.pkt.load d).getOhb with
          | .error _ => Machine.exec i s = .next (s.respond [0x02#8])
          | .ok (pt, seq, m) =>
            let len := d.length - ohbLength (d.getD (d.length - 1) 0x00#8)
            ∃ b t,
              Machine.exec i s =
                .next (({ s with pkt := { valid := true, buf := b, len := len, ekt := t,
                                          ektLen := tail.length } } : State).respond [0x00#8]) ∧
              Memory.slice b 0 len = d.take 1 ++ [(if m = true then 0x80#8 else 0x00#8) ||| pt] ++
                beBytes 2 seq.toNat ++ (d.take len).drop 4 ∧
              (∀ a, n ≤ a → Memory.read b a = Memory.read s.pkt.buf a) ∧
              Memory.patched t s.pkt.ekt 0 tail

/-- R295 (1): `SES.DECODE` of the bytes that `SES.ENCODE` returned, on any instance with the same
cipher, EKT flag, RTP key and salt while its `SES.ROC` is the one used by the encode, succeeds and
leaves every byte of the packet as it was before the encode, and the EKT tail as the pending one. -/
def Obligations.SessionRoundTrip : Prop :=
  ∀ (s t u : State) (wire : Bytes), s.Inv → Machine.exec .sesEncode s = .next t →
    t.responses = s.responses ++ [0x00#8 :: encodeOperands [.bytes wire]] →
    u.ses.cipher = s.ses.cipher → u.ses.useEkt = s.ses.useEkt → u.ses.roc = s.ses.roc →
    u.ses.rtpKey = s.ses.rtpKey → u.ses.klen = s.ses.klen → u.ses.rtpSalt = s.ses.rtpSalt →
    ∃ b e n, Machine.exec (.sesDecode wire) u =
        .next (({ u with pkt := { valid := true, buf := b, len := s.pkt.len, ekt := e,
                                  ektLen := n } } : State).respond [0x00#8]) ∧
      Memory.slice b 0 s.pkt.len = Memory.slice s.pkt.buf 0 s.pkt.len ∧
      Memory.slice e 0 n =
        (if s.ses.useEkt = true then Memory.slice s.pkt.ekt 0 s.pkt.ektLen else [0x00#8])

/-- R293 `SES.ENCRTCP` and the wire bytes of R96; from R293, R294 and R274 together, `SES.DECRTCP` of
them, on any instance with the same cipher, RTCP key and salt, restores the compound packet. -/
def Obligations.SesEncRtcpAndRoundTrip : Prop :=
  ∀ s : State, s.Inv →
    let r := s.rtcp
    let e := s.ses
    let w := r.esw ||| 0x80000000#32
    let iv := xorBytes ([0x00#8, 0x00#8] ++ Memory.slice r.buf 4 4 ++ [0x00#8, 0x00#8] ++
      beBytes 4 (r.esw &&& 0x7FFFFFFF#32).toNat) e.rtcpSalt
    let sealed := gcmSeal (e.rtcpKey.take e.klen) iv (Memory.slice r.buf 0 8 ++ beBytes 4 w.toNat)
      (Memory.slice r.buf 8 (r.len - 8))
    let body := Memory.slice r.buf 0 8 ++ sealed.1 ++ sealed.2
    let wire := body ++ beBytes 4 w.toNat
    if e.cipher = 0x0000#16 then Machine.exec .sesEncRtcp s = .next (s.respond [0x04#8])
    else if r.valid = false then Machine.exec .sesEncRtcp s = .next (s.respond [0x07#8])
    else if 1500 < r.len + 16 + 4 then Machine.exec .sesEncRtcp s = .next (s.respond [0x01#8])
    else
      (∃ b, Machine.exec .sesEncRtcp s =
          .next (({ s with rtcp := { r with buf := b, len := r.len + 16, esp := true, esw := w } } :
            State).respond (0x00#8 :: encodeOperands [.bytes wire])) ∧
        body.length = r.len + 16 ∧ Memory.patched b r.buf 0 body) ∧
      ∀ u : State, u.ses.cipher = e.cipher → u.ses.rtcpKey = e.rtcpKey → u.ses.klen = e.klen →
        u.ses.rtcpSalt = e.rtcpSalt →
        ∃ b, Machine.exec (.sesDecRtcp wire) u =
            .next (({ u with rtcp := { valid := true, buf := b, len := r.len, esp := true,
                                       esw := w } } : State).respond [0x00#8]) ∧
          Memory.slice b 0 r.len = Memory.slice r.buf 0 r.len

/-- R294 `SES.DECRTCP`: the checks in order, on a copy of the slot; a failure leaves the slot as it
was.  That the hidden bytes beyond the received packet stay is the model's choice (log 4). -/
def Obligations.SesDecRtcpOpensTheWirePacket : Prop :=
  ∀ (wire : Bytes) (s : State), s.Inv →
    let e := s.ses
    let i : Instr := .sesDecRtcp wire
    let n := wire.length - 4
    let esw := BitVec.ofNat 32 (beNat (wire.drop n))
    let iv := xorBytes ([0x00#8, 0x00#8] ++ (wire.drop 4).take 4 ++ [0x00#8, 0x00#8] ++
      beBytes 4 (esw &&& 0x7FFFFFFF#32).toNat) e.rtcpSalt
    if e.cipher = 0x0000#16 then Machine.exec i s = .next (s.respond [0x04#8])
    else if 1500 < wire.length then Machine.exec i s = .next (s.respond [0x01#8])
    else if wire.length < 12 ∨ esw &&& 0x80000000#32 = 0#32 then
      Machine.exec i s = .next (s.respond [0x02#8])
    else if n < 8 + 16 then Machine.exec i s = .next (s.respond [0x05#8])
    else match gcmOpen (e.rtcpKey.take e.klen) iv (wire.take 8 ++ wire.drop n)
        ((wire.drop 8).take (n - 16 - 8)) ((wire.drop (n - 16)).take 16) with
      | none => Machine.exec i s = .next (s.respond [0x05#8])
      | some plain => ∃ b,
        Machine.exec i s =
          .next (({ s with rtcp := { valid := true, buf := b, len := n - 16, esp := true,
                                     esw := esw } } : State).respond [0x00#8]) ∧
        Memory.slice b 0 (n - 16) = wire.take 8 ++ plain ∧
        ∀ a, n ≤ a → Memory.read b a = Memory.read s.rtcp.buf a
end

