-- ==== Sys2Proof/Laws/Bytes.lean ====
section
/-! SUPPORT. The laws of byte order: `BE_n` and `MemRead`'s number are inverse. -/

namespace Sys2Proof

@[simp] theorem length_beBytes (n v : Nat) : (beBytes n v).length = n := by
  induction n with
  | zero => rfl
  | succ n ih => simp [beBytes, ih]

@[simp] theorem beNat_nil : beNat [] = 0 := rfl

theorem foldl_beNat (bs : Bytes) (acc : Nat) :
    bs.foldl (fun acc b => acc * 256 + b.toNat) acc = acc * 256 ^ bs.length + beNat bs := by
  induction bs generalizing acc with
  | nil => simp [beNat]
  | cons b bs ih =>
    have h : beNat (b :: bs) = b.toNat * 256 ^ bs.length + beNat bs := by
      simpa [beNat] using ih b.toNat
    rw [List.foldl_cons, ih, h, List.length_cons, Nat.pow_succ]
    ring

theorem beNat_cons (b : Byte) (bs : Bytes) :
    beNat (b :: bs) = b.toNat * 256 ^ bs.length + beNat bs := by
  have := foldl_beNat bs b.toNat
  simpa [beNat] using this

theorem beNat_lt (bs : Bytes) : beNat bs < 256 ^ bs.length := by
  induction bs with
  | nil => simp
  | cons b bs ih =>
    rw [beNat_cons, List.length_cons, Nat.pow_succ]
    have hb : b.toNat < 256 := b.isLt
    calc b.toNat * 256 ^ bs.length + beNat bs
        < b.toNat * 256 ^ bs.length + 256 ^ bs.length := by omega
      _ = (b.toNat + 1) * 256 ^ bs.length := by ring
      _ ≤ 256 * 256 ^ bs.length := Nat.mul_le_mul_right _ hb
      _ = 256 ^ bs.length * 256 := Nat.mul_comm ..

/-- `BE_n` writes `v mod 2^(8n)`, and reading gives that back. -/
theorem beNat_beBytes (n v : Nat) : beNat (beBytes n v) = v % 256 ^ n := by
  induction n with
  | zero => simp [beBytes, Nat.mod_one]
  | succ n ih =>
    rw [beBytes, beNat_cons, length_beBytes, ih, BitVec.toNat_ofNat,
      show (2 : Nat) ^ 8 = 256 from rfl, Nat.pow_succ, Nat.mod_mul, Nat.add_comm, Nat.mul_comm]

theorem beNat_beBytes_of_lt {n v : Nat} (h : v < 256 ^ n) : beNat (beBytes n v) = v := by
  rw [beNat_beBytes, Nat.mod_eq_of_lt h]

/-- A byte string is the `BE_n` of its own number. -/
theorem beBytes_beNat (bs : Bytes) : beBytes bs.length (beNat bs) = bs := by
  suffices h : ∀ k, beBytes bs.length (k * 256 ^ bs.length + beNat bs) = bs by
    simpa using h 0
  induction bs with
  | nil => intro k; rfl
  | cons b bs ih =>
    intro k
    have hlt := beNat_lt bs
    simp only [List.length_cons, beBytes, beNat_cons]
    have e : k * 256 ^ (bs.length + 1) + (b.toNat * 256 ^ bs.length + beNat bs)
        = (k * 256 + b.toNat) * 256 ^ bs.length + beNat bs := by
      rw [Nat.pow_succ]; ring
    rw [e, ih]
    congr 1
    rw [Nat.add_comm, Nat.add_mul_div_right _ _ (Nat.pos_of_ne_zero (by positivity)),
      Nat.div_eq_of_lt hlt]
    apply BitVec.eq_of_toNat_eq
    simp only [BitVec.toNat_ofNat, Nat.zero_add]
    have : b.toNat < 256 := b.isLt
    omega

theorem beBytes_beNat_of_length {bs : Bytes} {n : Nat} (h : bs.length = n) :
    beBytes n (beNat bs) = bs := h ▸ beBytes_beNat bs

@[simp] theorem beBytes_one (b : Byte) : beBytes 1 b.toNat = [b] := by
  simp [beBytes]

/-- A 16-bit number's bytes. -/
theorem beBytes_two (h : BitVec 16) :
    beBytes 2 h.toNat = [h.extractLsb' 8 8, h.extractLsb' 0 8] := by
  simp only [beBytes, Nat.pow_one, Nat.pow_zero, Nat.div_one, List.cons.injEq, and_true]
  constructor <;> apply BitVec.eq_of_toNat_eq <;> simp [Nat.shiftRight_eq_div_pow]

/-- A 32-bit number's bytes. -/
theorem beBytes_four (w : BitVec 32) :
    beBytes 4 w.toNat =
      [w.extractLsb' 24 8, w.extractLsb' 16 8, w.extractLsb' 8 8, w.extractLsb' 0 8] := by
  simp only [beBytes, Nat.pow_one, Nat.pow_zero, Nat.div_one, List.cons.injEq, and_true]
  refine ⟨?_, ?_, ?_, ?_⟩ <;> apply BitVec.eq_of_toNat_eq <;>
    simp [Nat.shiftRight_eq_div_pow]

/-- The bytes of the number that `n` bytes make, through a register of their width. -/
theorem beBytes_ofNat_beNat {bs : Bytes} {n w : Nat} (h : bs.length = n) (hw : 2 ^ w = 256 ^ n) :
    beBytes n (BitVec.ofNat w (beNat bs)).toNat = bs := by
  have := beNat_lt bs
  rw [BitVec.toNat_ofNat, Nat.mod_eq_of_lt (by rw [hw, ← h]; exact this),
    beBytes_beNat_of_length h]

/-! ## Operands and results on the wire -/

theorem encodeOperand_u8 (v : BitVec 8) : encodeOperand (.u8 v) = [v] := beBytes_one v

theorem encodeOperand_u16 (v : BitVec 16) :
    encodeOperand (.u16 v) = [v.extractLsb' 8 8, v.extractLsb' 0 8] := beBytes_two v

theorem encodeOperand_u32 (v : BitVec 32) :
    encodeOperand (.u32 v) =
      [v.extractLsb' 24 8, v.extractLsb' 16 8, v.extractLsb' 8 8, v.extractLsb' 0 8] :=
  beBytes_four v

theorem encodeOperand_bool (b : Bool) :
    encodeOperand (.bool b) = [if b then 0x01#8 else 0x00#8] := rfl

theorem encodeOperand_bytes (data : Bytes) :
    encodeOperand (.bytes data) = beBytes 2 data.length ++ data := rfl

theorem encodeOperands_nil : encodeOperands [] = [] := rfl

theorem encodeOperands_cons (o : Operand) (ops : List Operand) :
    encodeOperands (o :: ops) = encodeOperand o ++ encodeOperands ops := by
  simp [encodeOperands]

end Sys2Proof
end

