-- ==== Sys2Proof/Laws/Memory.lean ====
section
/-! SUPPORT. The laws of byte-addressed stores: read after write, slices, the canonical form. -/

namespace Sys2Proof.Machine

/-! ## Reading -/

@[simp] theorem Memory.read_nil (i : Nat) : Memory.read [] i = Memory.blank := rfl

theorem Memory.read_of_absent {m : Memory} {i : Nat} (h : ∀ c ∈ m, c.1 ≠ i) :
    Memory.read m i = Memory.blank := by
  induction m with
  | nil => rfl
  | cons c m ih =>
    have hc : c.1 ≠ i := h c (by simp)
    simp only [Memory.read, if_neg hc]
    exact ih fun d hd => h d (by simp [hd])

theorem Memory.read_append (m n : Memory) (i : Nat) :
    Memory.read (m ++ n) i = if ∃ c ∈ m, c.1 = i then Memory.read m i else Memory.read n i := by
  induction m with
  | nil => simp
  | cons c m ih =>
    simp only [List.cons_append, Memory.read]
    by_cases hc : c.1 = i
    · simp [hc]
    · simp [hc, ih]

theorem Memory.read_filter (m : Memory) (q : Nat → Bool) (i : Nat) :
    Memory.read (m.filter fun c => q c.1) i =
      if q i then Memory.read m i else Memory.blank := by
  induction m with
  | nil => simp
  | cons c m ih =>
    rw [List.filter_cons]
    by_cases hq : q c.1
    · rw [if_pos hq]
      simp only [Memory.read, ih]
      by_cases hc : c.1 = i
      · subst hc; simp [hq]
      · simp [hc]
    · rw [if_neg hq, ih]
      by_cases hc : c.1 = i
      · subst hc; simp [hq]
      · simp [Memory.read, hc]

theorem Memory.read_cells (bs : Bytes) (a i : Nat) :
    Memory.read (Memory.cells a bs) i =
      if a ≤ i ∧ i < a + bs.length then bs.getD (i - a) Memory.blank else Memory.blank := by
  induction bs generalizing a with
  | nil => simp [Memory.cells]
  | cons b bs ih =>
    have key : Memory.read (Memory.cells a (b :: bs)) i =
        if a = i then b else Memory.read (Memory.cells (a + 1) bs) i := by
      by_cases hb : b = Memory.blank
      · simp only [Memory.cells, if_pos hb, ih]
        by_cases ha : a = i
        · subst ha; simp [hb]
        · simp [ha]
      · simp only [Memory.cells, if_neg hb, Memory.read]
    rw [key, ih]
    by_cases ha : a = i
    · subst ha; simp
    · by_cases h : a + 1 ≤ i ∧ i < a + 1 + bs.length
      · obtain ⟨k, rfl⟩ : ∃ k, i = a + 1 + k := ⟨i - (a + 1), by omega⟩
        simp only [List.length_cons, if_neg ha, if_pos h]
        rw [if_pos (by omega), show a + 1 + k - a = k + 1 by omega, List.getD_cons_succ,
          show a + 1 + k - (a + 1) = k by omega]
      · simp only [List.length_cons, if_neg ha, if_neg h]
        rw [if_neg (by omega)]

theorem Memory.mem_cells {bs : Bytes} {a : Nat} {c : Host.Cell} (h : c ∈ Memory.cells a bs) :
    a ≤ c.1 ∧ c.1 < a + bs.length ∧ c.2 ≠ Memory.blank := by
  induction bs generalizing a with
  | nil => simp [Memory.cells] at h
  | cons b bs ih =>
    by_cases hb : b = Memory.blank
    · rw [Memory.cells, if_pos hb] at h
      have := ih h
      simp only [List.length_cons]
      exact ⟨by omega, by omega, this.2.2⟩
    · rw [Memory.cells, if_neg hb] at h
      rcases List.mem_cons.mp h with rfl | h
      · exact ⟨Nat.le_refl _, by simp, hb⟩
      · have := ih h
        simp only [List.length_cons]
        exact ⟨by omega, by omega, this.2.2⟩

/-- Read after write: the bytes written are read there, every other offset reads as before. -/
theorem Memory.read_write (m : Memory) (a : Nat) (bs : Bytes) (i : Nat) :
    Memory.read (Memory.write m a bs) i =
      if a ≤ i ∧ i < a + bs.length then bs.getD (i - a) Memory.blank else Memory.read m i := by
  unfold Memory.write
  rw [List.append_assoc, Memory.read_append, Memory.read_append,
    Memory.read_filter m (fun x => decide (x < a)),
    Memory.read_filter m (fun x => decide (a + bs.length ≤ x)), Memory.read_cells]
  by_cases hin : a ≤ i ∧ i < a + bs.length
  · rw [if_pos hin]
    rw [if_neg (by
      rintro ⟨c, hc, rfl⟩
      simp only [List.mem_filter, decide_eq_true_eq] at hc
      omega)]
    split
    · rfl
    · rename_i h
      rw [if_neg (by simpa using hin.2)]
      have := Memory.read_of_absent (m := Memory.cells a bs) (i := i)
        (fun c hc hci => h ⟨c, hc, hci⟩)
      rw [Memory.read_cells, if_pos hin] at this
      exact this.symm
  · rw [if_neg hin, if_neg hin]
    by_cases hlt : i < a
    · simp only [hlt, decide_true, if_true]
      split
      · rfl
      · rename_i h
        rw [if_neg (by
          rintro ⟨c, hc, rfl⟩
          have := Memory.mem_cells hc
          omega), if_neg (by simpa using by omega)]
        refine (Memory.read_of_absent fun c hc hci => h ⟨c, ?_, hci⟩).symm
        simp only [List.mem_filter, decide_eq_true_eq]
        exact ⟨hc, by omega⟩
    · have hge : a + bs.length ≤ i := by omega
      rw [if_neg (by
        rintro ⟨c, hc, rfl⟩
        simp only [List.mem_filter, decide_eq_true_eq] at hc
        omega), if_neg (by
          rintro ⟨c, hc, rfl⟩
          have := Memory.mem_cells hc
          omega)]
      simp [hge]

/-- A write leaves every offset outside the written bytes alone. -/
theorem Memory.read_write_of_not_mem {m : Memory} {a i : Nat} {bs : Bytes}
    (h : i < a ∨ a + bs.length ≤ i) : Memory.read (Memory.write m a bs) i = Memory.read m i := by
  rw [Memory.read_write, if_neg (by omega)]

/-! ## Slices -/

@[simp] theorem Memory.length_slice (m : Memory) (a n : Nat) : (Memory.slice m a n).length = n := by
  induction n generalizing a with
  | zero => rfl
  | succ n ih => simp [Memory.slice, ih]

theorem Memory.getElem_slice (m : Memory) (a n i : Nat) (h : i < (Memory.slice m a n).length) :
    (Memory.slice m a n)[i] = Memory.read m (a + i) := by
  induction n generalizing a i with
  | zero => simp at h
  | succ n ih =>
    cases i with
    | zero => rfl
    | succ i =>
      simp only [Memory.slice, List.getElem_cons_succ]
      rw [ih (a + 1) i (by simpa [Memory.slice] using h), show a + 1 + i = a + (i + 1) by omega]

/-- Two slices agree when the bytes they read agree. -/
theorem Memory.slice_congr {m m' : Memory} {a a' n : Nat}
    (h : ∀ i < n, Memory.read m (a + i) = Memory.read m' (a' + i)) :
    Memory.slice m a n = Memory.slice m' a' n := by
  apply List.ext_getElem (by simp)
  intro i h1 _
  rw [Memory.getElem_slice, Memory.getElem_slice]
  exact h i (by simpa using h1)

theorem Memory.slice_append (m : Memory) (a n k : Nat) :
    Memory.slice m a (n + k) = Memory.slice m a n ++ Memory.slice m (a + n) k := by
  induction n generalizing a with
  | zero => simp [Memory.slice]
  | succ n ih =>
    rw [show n + 1 + k = n + k + 1 by omega]
    simp only [Memory.slice, List.cons_append, ih]
    rw [show a + 1 + n = a + (n + 1) by omega]

/-- The bytes written are read back, also as part of a longer write. -/
theorem Memory.slice_write_part (m : Memory) (a k n : Nat) (bs : Bytes)
    (h : k + n ≤ bs.length) :
    Memory.slice (Memory.write m a bs) (a + k) n = (bs.drop k).take n := by
  apply List.ext_getElem (by simp; omega)
  intro i h1 h2
  simp only [Memory.length_slice] at h1
  rw [Memory.getElem_slice, Memory.read_write, if_pos (by omega)]
  rw [show a + k + i - a = k + i by omega, List.getD_eq_getElem _ _ (by omega)]
  simp

theorem Memory.slice_write_same (m : Memory) (a n : Nat) (bs : Bytes) (h : n = bs.length) :
    Memory.slice (Memory.write m a bs) a n = bs := by
  have := Memory.slice_write_part m a 0 n bs (by omega)
  simpa [h] using this

/-- A write outside a slice leaves it alone. -/
theorem Memory.slice_write_disjoint (m : Memory) (a k n : Nat) (bs : Bytes)
    (h : k + n ≤ a ∨ a + bs.length ≤ k) :
    Memory.slice (Memory.write m a bs) k n = Memory.slice m k n :=
  Memory.slice_congr fun i hi => Memory.read_write_of_not_mem (by omega)

/-! ## The canonical form -/

theorem Memory.wf_nil : Memory.wf [] := ⟨List.Pairwise.nil, by simp⟩

/-- Two stores in canonical form that read alike are the same data. -/
theorem Memory.wf_ext {m n : Memory} (hm : Memory.wf m) (hn : Memory.wf n)
    (h : ∀ i, Memory.read m i = Memory.read n i) : m = n := by
  induction m generalizing n with
  | nil =>
    cases n with
    | nil => rfl
    | cons d n =>
      have := h d.1
      simp only [Memory.read, if_true] at this
      exact absurd this.symm (hn.2 d (by simp))
  | cons c m ih =>
    cases n with
    | nil =>
      have := h c.1
      simp only [Memory.read, if_true] at this
      exact absurd this (hm.2 c (by simp))
    | cons d n =>
      have hcm := (List.pairwise_cons.mp hm.1).1
      have hdn := (List.pairwise_cons.mp hn.1).1
      have absent {k : Nat} {l : Memory} (hl : ∀ e ∈ l, k < e.1) :
          Memory.read l k = Memory.blank :=
        Memory.read_of_absent fun e he => by have := hl e he; omega
      have h1 := h c.1
      have h2 := h d.1
      have hcd : c.1 = d.1 := by
        rcases Nat.lt_trichotomy c.1 d.1 with hlt | heq | hgt
        · exfalso
          simp only [Memory.read, if_true, if_neg (Nat.ne_of_gt hlt)] at h1
          rw [absent fun e he => Nat.lt_trans hlt (hdn e he)] at h1
          exact hm.2 c (by simp) h1
        · exact heq
        · exfalso
          simp only [Memory.read, if_true, if_neg (Nat.ne_of_gt hgt)] at h2
          rw [absent fun e he => Nat.lt_trans hgt (hcm e he)] at h2
          exact hn.2 d (by simp) h2.symm
      have hval : c.2 = d.2 := by simpa [Memory.read, hcd] using h1
      have hrest : m = n := by
        refine ih ⟨(List.pairwise_cons.mp hm.1).2, fun e he => hm.2 e (by simp [he])⟩
          ⟨(List.pairwise_cons.mp hn.1).2, fun e he => hn.2 e (by simp [he])⟩ fun i => ?_
        by_cases hi : c.1 = i
        · rw [absent fun e he => hi ▸ hcm e he, absent fun e he => hi ▸ hcd ▸ hdn e he]
        · simpa [Memory.read, hi, ← hcd] using h i
      rw [hrest, Prod.ext hcd hval]

theorem Memory.cells_rising (bs : Bytes) (a : Nat) :
    (Memory.cells a bs).Pairwise (fun c d => c.1 < d.1) := by
  induction bs generalizing a with
  | nil => simp [Memory.cells]
  | cons b bs ih =>
    by_cases hb : b = Memory.blank
    · rw [Memory.cells, if_pos hb]; exact ih _
    · rw [Memory.cells, if_neg hb]
      refine List.Pairwise.cons ?_ (ih _)
      intro c hc
      have := Memory.mem_cells hc
      show a < c.1
      omega

/-- Every write keeps the canonical form of a store. -/
theorem Memory.wf_write {m : Memory} (h : Memory.wf m) (a : Nat) (bs : Bytes) :
    Memory.wf (Memory.write m a bs) := by
  obtain ⟨hp, hb⟩ := h
  constructor
  · unfold Memory.write
    rw [List.pairwise_append, List.pairwise_append]
    refine ⟨⟨hp.filter _, Memory.cells_rising bs a, ?_⟩, hp.filter _, ?_⟩
    · intro c hc d hd
      have := Memory.mem_cells hd
      simp only [List.mem_filter, decide_eq_true_eq] at hc
      omega
    · intro c hc d hd
      simp only [List.mem_append, List.mem_filter, decide_eq_true_eq] at hc hd
      rcases hc with hc | hc
      · omega
      · have := Memory.mem_cells hc
        omega
  · intro c hc
    simp only [Memory.write, List.mem_append, List.mem_filter] at hc
    rcases hc with (hc | hc) | hc
    · exact hb c hc.1
    · exact (Memory.mem_cells hc).2.2
    · exact hb c hc.1

/-- A write that ends within the capacity keeps every offset within it. -/
theorem Memory.within_write {m : Memory} {size : Nat} (h : Memory.within m size) (a : Nat)
    (bs : Bytes) (hb : a + bs.length ≤ size) : Memory.within (Memory.write m a bs) size := by
  intro c hc
  simp only [Memory.write, List.mem_append, List.mem_filter] at hc
  rcases hc with (hc | hc) | hc
  · exact h c hc.1
  · have := Memory.mem_cells hc
    omega
  · exact h c hc.1

end Sys2Proof.Machine
end

