-- ==== Sys2Proof/Laws/State.lean ====
section
/-! SUPPORT. One lemma per field per named update, so that no proof unfolds a record update. -/

namespace Sys2Proof.Machine

/-! ## `State.withPkt` -/

@[simp] theorem State.withPkt_pkt (s : State) (p : Pkt) : (s.withPkt p).pkt = p := rfl
@[simp] theorem State.withPkt_rtcp (s : State) (p : Pkt) : (s.withPkt p).rtcp = s.rtcp := rfl
@[simp] theorem State.withPkt_kdf (s : State) (p : Pkt) : (s.withPkt p).kdf = s.kdf := rfl
@[simp] theorem State.withPkt_ses (s : State) (p : Pkt) : (s.withPkt p).ses = s.ses := rfl
@[simp] theorem State.withPkt_inputs (s : State) (p : Pkt) : (s.withPkt p).inputs = s.inputs := rfl
@[simp] theorem State.withPkt_responses (s : State) (p : Pkt) : (s.withPkt p).responses = s.responses := rfl
@[simp] theorem State.withPkt_draws (s : State) (p : Pkt) : (s.withPkt p).draws = s.draws := rfl

/-! ## `State.withRtcp` -/

@[simp] theorem State.withRtcp_pkt (s : State) (r : Rtcp) : (s.withRtcp r).pkt = s.pkt := rfl
@[simp] theorem State.withRtcp_rtcp (s : State) (r : Rtcp) : (s.withRtcp r).rtcp = r := rfl
@[simp] theorem State.withRtcp_kdf (s : State) (r : Rtcp) : (s.withRtcp r).kdf = s.kdf := rfl
@[simp] theorem State.withRtcp_ses (s : State) (r : Rtcp) : (s.withRtcp r).ses = s.ses := rfl
@[simp] theorem State.withRtcp_inputs (s : State) (r : Rtcp) : (s.withRtcp r).inputs = s.inputs := rfl
@[simp] theorem State.withRtcp_responses (s : State) (r : Rtcp) : (s.withRtcp r).responses = s.responses := rfl
@[simp] theorem State.withRtcp_draws (s : State) (r : Rtcp) : (s.withRtcp r).draws = s.draws := rfl

/-! ## `State.withKdf` -/

@[simp] theorem State.withKdf_pkt (s : State) (k : Kdf) : (s.withKdf k).pkt = s.pkt := rfl
@[simp] theorem State.withKdf_rtcp (s : State) (k : Kdf) : (s.withKdf k).rtcp = s.rtcp := rfl
@[simp] theorem State.withKdf_kdf (s : State) (k : Kdf) : (s.withKdf k).kdf = k := rfl
@[simp] theorem State.withKdf_ses (s : State) (k : Kdf) : (s.withKdf k).ses = s.ses := rfl
@[simp] theorem State.withKdf_inputs (s : State) (k : Kdf) : (s.withKdf k).inputs = s.inputs := rfl
@[simp] theorem State.withKdf_responses (s : State) (k : Kdf) : (s.withKdf k).responses = s.responses := rfl
@[simp] theorem State.withKdf_draws (s : State) (k : Kdf) : (s.withKdf k).draws = s.draws := rfl

/-! ## `State.withSes` -/

@[simp] theorem State.withSes_pkt (s : State) (e : Ses) : (s.withSes e).pkt = s.pkt := rfl
@[simp] theorem State.withSes_rtcp (s : State) (e : Ses) : (s.withSes e).rtcp = s.rtcp := rfl
@[simp] theorem State.withSes_kdf (s : State) (e : Ses) : (s.withSes e).kdf = s.kdf := rfl
@[simp] theorem State.withSes_ses (s : State) (e : Ses) : (s.withSes e).ses = e := rfl
@[simp] theorem State.withSes_inputs (s : State) (e : Ses) : (s.withSes e).inputs = s.inputs := rfl
@[simp] theorem State.withSes_responses (s : State) (e : Ses) : (s.withSes e).responses = s.responses := rfl
@[simp] theorem State.withSes_draws (s : State) (e : Ses) : (s.withSes e).draws = s.draws := rfl

/-! ## `State.respond` -/

@[simp] theorem State.respond_pkt (s : State) (r : Bytes) : (s.respond r).pkt = s.pkt := rfl
@[simp] theorem State.respond_rtcp (s : State) (r : Bytes) : (s.respond r).rtcp = s.rtcp := rfl
@[simp] theorem State.respond_kdf (s : State) (r : Bytes) : (s.respond r).kdf = s.kdf := rfl
@[simp] theorem State.respond_ses (s : State) (r : Bytes) : (s.respond r).ses = s.ses := rfl
@[simp] theorem State.respond_inputs (s : State) (r : Bytes) : (s.respond r).inputs = s.inputs := rfl
@[simp] theorem State.respond_responses (s : State) (r : Bytes) : (s.respond r).responses = s.responses ++ [r] := rfl
@[simp] theorem State.respond_draws (s : State) (r : Bytes) : (s.respond r).draws = s.draws := rfl

/-! ## `Pkt.write` -/

@[simp] theorem Pkt.write_valid (p : Pkt) (a : Nat) (bs : Bytes) :
    (p.write a bs).valid = p.valid := rfl
@[simp] theorem Pkt.write_buf (p : Pkt) (a : Nat) (bs : Bytes) :
    (p.write a bs).buf = Memory.write p.buf a bs := rfl
@[simp] theorem Pkt.write_len (p : Pkt) (a : Nat) (bs : Bytes) :
    (p.write a bs).len = p.len := rfl
@[simp] theorem Pkt.write_ekt (p : Pkt) (a : Nat) (bs : Bytes) :
    (p.write a bs).ekt = p.ekt := rfl
@[simp] theorem Pkt.write_ektLen (p : Pkt) (a : Nat) (bs : Bytes) :
    (p.write a bs).ektLen = p.ektLen := rfl

/-! ## `Pkt.setLen` -/

@[simp] theorem Pkt.setLen_valid (p : Pkt) (n : Nat) :
    (p.setLen n).valid = p.valid := rfl
@[simp] theorem Pkt.setLen_buf (p : Pkt) (n : Nat) :
    (p.setLen n).buf = p.buf := rfl
@[simp] theorem Pkt.setLen_len (p : Pkt) (n : Nat) :
    (p.setLen n).len = n := rfl
@[simp] theorem Pkt.setLen_ekt (p : Pkt) (n : Nat) :
    (p.setLen n).ekt = p.ekt := rfl
@[simp] theorem Pkt.setLen_ektLen (p : Pkt) (n : Nat) :
    (p.setLen n).ektLen = p.ektLen := rfl

/-! ## `Pkt.setEkt` -/

@[simp] theorem Pkt.setEkt_valid (p : Pkt) (tag : Bytes) :
    (p.setEkt tag).valid = p.valid := rfl
@[simp] theorem Pkt.setEkt_buf (p : Pkt) (tag : Bytes) :
    (p.setEkt tag).buf = p.buf := rfl
@[simp] theorem Pkt.setEkt_len (p : Pkt) (tag : Bytes) :
    (p.setEkt tag).len = p.len := rfl
@[simp] theorem Pkt.setEkt_ekt (p : Pkt) (tag : Bytes) :
    (p.setEkt tag).ekt = Memory.write p.ekt 0 tag := rfl
@[simp] theorem Pkt.setEkt_ektLen (p : Pkt) (tag : Bytes) :
    (p.setEkt tag).ektLen = tag.length := rfl

/-! ## `Pkt.load` -/

@[simp] theorem Pkt.load_valid (p : Pkt) (data : Bytes) :
    (p.load data).valid = true := rfl
@[simp] theorem Pkt.load_buf (p : Pkt) (data : Bytes) :
    (p.load data).buf = Memory.write p.buf 0 data := rfl
@[simp] theorem Pkt.load_len (p : Pkt) (data : Bytes) :
    (p.load data).len = data.length := rfl
@[simp] theorem Pkt.load_ekt (p : Pkt) (data : Bytes) :
    (p.load data).ekt = p.ekt := rfl
@[simp] theorem Pkt.load_ektLen (p : Pkt) (data : Bytes) :
    (p.load data).ektLen = p.ektLen := rfl

/-! ## `Rtcp.write` -/

@[simp] theorem Rtcp.write_valid (r : Rtcp) (a : Nat) (bs : Bytes) :
    (r.write a bs).valid = r.valid := rfl
@[simp] theorem Rtcp.write_buf (r : Rtcp) (a : Nat) (bs : Bytes) :
    (r.write a bs).buf = Memory.write r.buf a bs := rfl
@[simp] theorem Rtcp.write_len (r : Rtcp) (a : Nat) (bs : Bytes) :
    (r.write a bs).len = r.len := rfl
@[simp] theorem Rtcp.write_esp (r : Rtcp) (a : Nat) (bs : Bytes) :
    (r.write a bs).esp = r.esp := rfl
@[simp] theorem Rtcp.write_esw (r : Rtcp) (a : Nat) (bs : Bytes) :
    (r.write a bs).esw = r.esw := rfl

/-! ## `Rtcp.setLen` -/

@[simp] theorem Rtcp.setLen_valid (r : Rtcp) (n : Nat) :
    (r.setLen n).valid = r.valid := rfl
@[simp] theorem Rtcp.setLen_buf (r : Rtcp) (n : Nat) :
    (r.setLen n).buf = r.buf := rfl
@[simp] theorem Rtcp.setLen_len (r : Rtcp) (n : Nat) :
    (r.setLen n).len = n := rfl
@[simp] theorem Rtcp.setLen_esp (r : Rtcp) (n : Nat) :
    (r.setLen n).esp = r.esp := rfl
@[simp] theorem Rtcp.setLen_esw (r : Rtcp) (n : Nat) :
    (r.setLen n).esw = r.esw := rfl

/-! ## `Rtcp.setEsw` -/

@[simp] theorem Rtcp.setEsw_valid (r : Rtcp) (w : BitVec 32) :
    (r.setEsw w).valid = r.valid := rfl
@[simp] theorem Rtcp.setEsw_buf (r : Rtcp) (w : BitVec 32) :
    (r.setEsw w).buf = r.buf := rfl
@[simp] theorem Rtcp.setEsw_len (r : Rtcp) (w : BitVec 32) :
    (r.setEsw w).len = r.len := rfl
@[simp] theorem Rtcp.setEsw_esp (r : Rtcp) (w : BitVec 32) :
    (r.setEsw w).esp = true := rfl
@[simp] theorem Rtcp.setEsw_esw (r : Rtcp) (w : BitVec 32) :
    (r.setEsw w).esw = w := rfl

/-! ## `Ses.setSeq` -/

@[simp] theorem Ses.setSeq_state (e : Ses) (seq : BitVec 16) :
    (e.setSeq seq).state = e.state := rfl
@[simp] theorem Ses.setSeq_cipher (e : Ses) (seq : BitVec 16) :
    (e.setSeq seq).cipher = e.cipher := rfl
@[simp] theorem Ses.setSeq_useEkt (e : Ses) (seq : BitVec 16) :
    (e.setSeq seq).useEkt = e.useEkt := rfl
@[simp] theorem Ses.setSeq_rewrite (e : Ses) (seq : BitVec 16) :
    (e.setSeq seq).rewrite = e.rewrite := rfl
@[simp] theorem Ses.setSeq_seq (e : Ses) (seq : BitVec 16) :
    (e.setSeq seq).seq = seq := rfl
@[simp] theorem Ses.setSeq_roc (e : Ses) (seq : BitVec 16) :
    (e.setSeq seq).roc = e.roc := rfl
@[simp] theorem Ses.setSeq_rtpKey (e : Ses) (seq : BitVec 16) :
    (e.setSeq seq).rtpKey = e.rtpKey := rfl
@[simp] theorem Ses.setSeq_rtcpKey (e : Ses) (seq : BitVec 16) :
    (e.setSeq seq).rtcpKey = e.rtcpKey := rfl
@[simp] theorem Ses.setSeq_klen (e : Ses) (seq : BitVec 16) :
    (e.setSeq seq).klen = e.klen := rfl
@[simp] theorem Ses.setSeq_rtpSalt (e : Ses) (seq : BitVec 16) :
    (e.setSeq seq).rtpSalt = e.rtpSalt := rfl
@[simp] theorem Ses.setSeq_rtcpSalt (e : Ses) (seq : BitVec 16) :
    (e.setSeq seq).rtcpSalt = e.rtcpSalt := rfl
@[simp] theorem Ses.setSeq_extMap (e : Ses) (seq : BitVec 16) :
    (e.setSeq seq).extMap = e.extMap := rfl

/-! ## `Ses.advance` -/

@[simp] theorem Ses.advance_state (e : Ses) :
    e.advance.state = e.state := rfl
@[simp] theorem Ses.advance_cipher (e : Ses) :
    e.advance.cipher = e.cipher := rfl
@[simp] theorem Ses.advance_useEkt (e : Ses) :
    e.advance.useEkt = e.useEkt := rfl
@[simp] theorem Ses.advance_rewrite (e : Ses) :
    e.advance.rewrite = e.rewrite := rfl
@[simp] theorem Ses.advance_seq (e : Ses) :
    e.advance.seq = e.seq + 1#16 := rfl
@[simp] theorem Ses.advance_roc (e : Ses) :
    e.advance.roc = if e.seq + 1#16 = 0#16 then e.roc + 1#32 else e.roc := rfl
@[simp] theorem Ses.advance_rtpKey (e : Ses) :
    e.advance.rtpKey = e.rtpKey := rfl
@[simp] theorem Ses.advance_rtcpKey (e : Ses) :
    e.advance.rtcpKey = e.rtcpKey := rfl
@[simp] theorem Ses.advance_klen (e : Ses) :
    e.advance.klen = e.klen := rfl
@[simp] theorem Ses.advance_rtpSalt (e : Ses) :
    e.advance.rtpSalt = e.rtpSalt := rfl
@[simp] theorem Ses.advance_rtcpSalt (e : Ses) :
    e.advance.rtcpSalt = e.rtcpSalt := rfl
@[simp] theorem Ses.advance_extMap (e : Ses) :
    e.advance.extMap = e.extMap := rfl

/-! ## Two updates of one unit -/

@[simp] theorem State.withPkt_withPkt (s : State) (p q : Pkt) :
    (s.withPkt p).withPkt q = s.withPkt q := rfl
@[simp] theorem State.withRtcp_withRtcp (s : State) (r q : Rtcp) :
    (s.withRtcp r).withRtcp q = s.withRtcp q := rfl
@[simp] theorem State.withPkt_self (s : State) : s.withPkt s.pkt = s := rfl
@[simp] theorem State.withRtcp_self (s : State) : s.withRtcp s.rtcp = s := rfl
@[simp] theorem State.withSes_self (s : State) : s.withSes s.ses = s := rfl

end Sys2Proof.Machine
end

