-- ==== Sys2Proof/Laws/Ops.lean ====
section
/-! SUPPORT. What each shared operation can do, said once: how a command ends, the common
preconditions, byte-string helpers, and the two forms in which a statement describes a store. -/

namespace Sys2Proof.Machine

/-! ## Parameters and checks, as plain facts -/

theorem mtu_eq : Config.mtu = 1500 := by decide
theorem ccMax_eq : Config.ccMax = 15 := by decide
theorem tagLen_eq : Config.tagLen = 16 := by decide
theorem saltLen_eq : Config.saltLen = 12 := by decide
theorem msaltLen_eq : Config.msaltLen = 14 := by decide
theorem rtcpHdr_eq : Config.rtcpHdr = 8 := by decide
theorem esrtcpLen_eq : Config.esrtcpLen = 4 := by decide
theorem uriMax_eq : Config.uriMax = 255 := by decide
theorem ektMax_eq : Config.ektMax = 1500 := by decide

theorem badCsrc_iff (p : Pkt) : p.badCsrc = true ↔ p.len < p.extOff := by simp [Pkt.badCsrc]

theorem badExtHdr_iff (p : Pkt) : p.badExtHdr = true ↔ p.x = true ∧ p.len < p.extOff + 4 := by
  simp [Pkt.badExtHdr]

theorem badPay_iff (p : Pkt) :
    p.badPay = true ↔ (p.x = true ∧ p.len < p.extOff + 4) ∨ p.len < p.payOff := by
  simp [Pkt.badPay, badExtHdr_iff]

theorem badKeyLength_iff (key : Bytes) :
    badKeyLength key = true ↔ key.length ≠ 16 ∧ key.length ≠ 32 := by
  simp [badKeyLength]

theorem badKeySalt_iff (key salt : Bytes) :
    badKeySalt key salt = true ↔ (key.length ≠ 16 ∧ key.length ≠ 32) ∨ salt.length ≠ 12 := by
  simp [badKeySalt, badKeyLength_iff, saltLen_eq]

theorem badExtId_iff (id : BitVec 8) : badExtId id = true ↔ id.toNat < 1 ∨ 14 < id.toNat := by
  simp [badExtId]

/-- A two-byte field of a store. -/
theorem Memory.readBE_two (m : Memory) (a : Nat) :
    Memory.readBE m a 2 = (Memory.read m a).toNat * 256 + (Memory.read m (a + 1)).toNat := by
  simp [Memory.readBE, Memory.slice, beNat_cons]

/-! ## How a command ends -/

@[simp] theorem perform_error (s : State) (k : Status) :
    perform s (.error k) = .next (s.respond [k.code]) := rfl

@[simp] theorem perform_ok (s t : State) (rs : List Operand) :
    perform s (.ok (t, rs)) = .next (t.respond (0x00#8 :: encodeOperands rs)) := rfl

@[simp] theorem perform_done (s t : State) :
    perform s (.ok (t, [])) = .next (t.respond [0x00#8]) := rfl

/-- A command either raises a status and changes nothing else, or replies from the state it left. -/
theorem perform_cases {s t : State} {r : Result} (h : perform s r = .next t) :
    (∃ k, r = .error k ∧ t = s.respond [k.code]) ∨
      ∃ u rs, r = .ok (u, rs) ∧ t = u.respond (0x00#8 :: encodeOperands rs) := by
  rcases r with k | ⟨u, rs⟩
  · exact .inl ⟨k, rfl, by simpa using h.symm⟩
  · exact .inr ⟨u, rs, rfl, by simpa using h.symm⟩

theorem State.readPkt_empty {s : State} (h : s.pkt.valid = false)
    (f : Pkt → Except Status (List Operand)) : s.readPkt f = .error .illegalCommand := by
  simp [State.readPkt, h]

theorem State.readPkt_loaded {s : State} (h : s.pkt.valid = true)
    (f : Pkt → Except Status (List Operand)) : s.readPkt f = (f s.pkt).map fun rs => (s, rs) := by
  simp [State.readPkt, h]

theorem State.editPkt_empty {s : State} (h : s.pkt.valid = false) (f : Pkt → Except Status Pkt) :
    s.editPkt f = .error .illegalCommand := by
  simp [State.editPkt, h]

theorem State.editPkt_loaded {s : State} (h : s.pkt.valid = true) (f : Pkt → Except Status Pkt) :
    s.editPkt f = (f s.pkt).map fun p => (s.withPkt p, []) := by
  simp [State.editPkt, h]

theorem State.readRtcp_empty {s : State} (h : s.rtcp.valid = false)
    (f : Rtcp → Except Status (List Operand)) : s.readRtcp f = .error .illegalCommand := by
  simp [State.readRtcp, h]

theorem State.readRtcp_loaded {s : State} (h : s.rtcp.valid = true)
    (f : Rtcp → Except Status (List Operand)) :
    s.readRtcp f = (f s.rtcp).map fun rs => (s, rs) := by
  simp [State.readRtcp, h]

theorem State.editRtcp_empty {s : State} (h : s.rtcp.valid = false) (f : Rtcp → Except Status Rtcp) :
    s.editRtcp f = .error .illegalCommand := by
  simp [State.editRtcp, h]

theorem State.editRtcp_loaded {s : State} (h : s.rtcp.valid = true) (f : Rtcp → Except Status Rtcp) :
    s.editRtcp f = (f s.rtcp).map fun r => (s.withRtcp r, []) := by
  simp [State.editRtcp, h]

/-! ## Byte strings -/

@[simp] theorem length_xorBytes (xs ys : Bytes) :
    (xorBytes xs ys).length = min xs.length ys.length := by
  simp [xorBytes]

@[simp] theorem length_zeros (n : Nat) : (zeros n).length = n := by simp [zeros]

theorem length_overwrite {reg bs : Bytes} (h : bs.length ≤ reg.length) :
    (overwrite reg bs).length = reg.length := by
  simp [overwrite]; omega

theorem take_overwrite (reg bs : Bytes) : (overwrite reg bs).take bs.length = bs := by
  simp [overwrite]

/-- Exclusive-or with one string twice gives the other back. -/
theorem xorBytes_xorBytes (xs ys : Bytes) (h : xs.length ≤ ys.length) :
    xorBytes (xorBytes xs ys) ys = xs := by
  induction xs generalizing ys with
  | nil => simp [xorBytes]
  | cons x xs ih =>
    cases ys with
    | nil => simp at h
    | cons y ys =>
      simp only [xorBytes, List.zipWith_cons_cons, List.cons.injEq]
      refine ⟨by rw [BitVec.xor_assoc, BitVec.xor_self, BitVec.xor_zero], ?_⟩
      exact ih ys (by simpa using h)

/-! ## The forms in which a statement describes a store -/

theorem Memory.patched_write (m : Memory) (a : Nat) (bs : Bytes) :
    Memory.patched (Memory.write m a bs) m a bs := fun i => Memory.read_write m a bs i

theorem Memory.patchedHead_write (m : Memory) (v : Byte) (a : Nat) (bs : Bytes) :
    Memory.patchedHead (Memory.write (Memory.write m a bs) 0 [v]) m v a bs := by
  intro i
  rw [Memory.read_write]
  by_cases hi : i = 0
  · subst hi; simp
  · rw [if_neg (by simp; omega), if_neg hi, Memory.read_write]; rfl

/-- A slice of a patched store that lies in the patch. -/
theorem Memory.patched.slice {b m : Memory} {a : Nat} {bs : Bytes} (h : Memory.patched b m a bs) :
    Memory.slice b a bs.length = bs := by
  apply List.ext_getElem (by simp)
  intro i h1 h2
  rw [Memory.getElem_slice, h, if_pos (by omega)]
  rw [Nat.add_sub_cancel_left, List.getD_eq_getElem _ _ h2]

end Sys2Proof.Machine
end

