-- ==== Sys2Proof/Laws/Crypto.lean ====
section
/-! SUPPORT. Lengths and the one algebraic fact about the ciphers: counter mode undoes itself. -/

namespace Sys2Proof.Machine

@[simp] theorem length_bytesOfBlock (b : Block) : (bytesOfBlock b).length = 16 := by
  simp [bytesOfBlock]

@[simp] theorem length_keyStream (next : Block → Block) (key : Bytes) (n : Nat) (b : Block) :
    (keyStream next key n b).length = 16 * n := by
  induction n generalizing b with
  | zero => rfl
  | succ n ih => simp [keyStream, ih]; omega

theorem le_blockCount (n : Nat) : n ≤ 16 * blockCount n := by
  simp only [blockCount]; omega

@[simp] theorem length_ctr (key : Bytes) (iv : Block) (n : Nat) : (ctr key iv n).length = n := by
  have := le_blockCount n
  simp [ctr]; omega

@[simp] theorem length_gctr (key : Bytes) (icb : Block) (xs : Bytes) :
    (gctr key icb xs).length = xs.length := by
  have := le_blockCount xs.length
  simp [gctr]; omega

/-- Counter mode is its own inverse. -/
theorem gctr_gctr (key : Bytes) (icb : Block) (xs : Bytes) :
    gctr key icb (gctr key icb xs) = xs := by
  conv_lhs => rw [gctr, length_gctr]
  exact xorBytes_xorBytes _ _ (by simpa using le_blockCount xs.length)

@[simp] theorem length_gcmTag (key iv a c : Bytes) : (gcmTag key iv a c).length = 16 := by
  simp [gcmTag]

@[simp] theorem length_gcmSeal_fst (key iv a p : Bytes) :
    (gcmSeal key iv a p).1.length = p.length := by
  simp [gcmSeal]

@[simp] theorem length_gcmSeal_snd (key iv a p : Bytes) : (gcmSeal key iv a p).2.length = 16 := by
  simp [gcmSeal]

/-- A plaintext is released only with the tag of its ciphertext, and is as long as it. -/
theorem gcmOpen_some {key iv a c t plain : Bytes} (h : gcmOpen key iv a c t = some plain) :
    gcmTag key iv a c = t ∧ plain = gctr key (inc32 (gcmJ0 iv)) c := by
  simp only [gcmOpen] at h
  split at h
  · exact ⟨by assumption, by simpa using h.symm⟩
  · simp at h

theorem length_gcmOpen {key iv a c t plain : Bytes} (h : gcmOpen key iv a c t = some plain) :
    plain.length = c.length := by
  rw [(gcmOpen_some h).2, length_gctr]

@[simp] theorem length_prf (k : Kdf) (label index size : Nat) :
    (k.prf label index size).length = size := by
  simp [Kdf.prf]

end Sys2Proof.Machine
end

