-- ==== Sys2Proof/Laws/Operand.lean ====
section
/-! SUPPORT. One operand: its type, when its encoding can carry it, and that decoding reads it back. -/

namespace Sys2Proof

/-- The type under which an operand is carried. -/
def Operand.type : Operand → OperandType
  | .u8 _ => .u8
  | .u16 _ => .u16
  | .u32 _ => .u32
  | .u48 _ => .u48
  | .bool _ => .bool
  | .i8 _ => .i8
  | .bytes _ => .bytes

/-- R108: the values the encoding can carry. -/
def Operand.fits : Operand → Bool
  | .i8 v => fitsSignedByte v
  | .bytes data => fitsLength data
  | _ => true

theorem takeBytes_append (n : Nat) (bs rest : Bytes) (h : bs.length = n) :
    takeBytes n (bs ++ rest) = .ok (bs, rest) := by
  subst h
  simp [takeBytes]

theorem takeBytes_ok {n : Nat} {bs a b : Bytes} (h : takeBytes n bs = .ok (a, b)) :
    bs = a ++ b ∧ a.length = n := by
  unfold takeBytes at h
  split at h
  · cases h
  · rename_i hn
    cases h
    exact ⟨(List.take_append_drop n bs).symm, by simp; omega⟩

/-- R108: an operand that fits is read back from its encoding, and what follows is left. -/
theorem decodeOperand_encodeOperand (op : Operand) (rest : Bytes) (h : op.fits = true) :
    decodeOperand op.type (encodeOperand op ++ rest) = .ok (op, rest) := by
  cases op with
  | u8 v =>
    simp only [Operand.type, decodeOperand, encodeOperand]
    rw [takeBytes_append 1 _ _ (by simp)]
    simp [Except.map, beNat]
  | u16 v =>
    simp only [Operand.type, decodeOperand, encodeOperand]
    rw [takeBytes_append 2 _ _ (by simp)]
    simp [Except.map, beNat_beBytes_of_lt (n := 2) v.isLt]
  | u32 v =>
    simp only [Operand.type, decodeOperand, encodeOperand]
    rw [takeBytes_append 4 _ _ (by simp)]
    simp [Except.map, beNat_beBytes_of_lt (n := 4) v.isLt]
  | u48 v =>
    simp only [Operand.type, decodeOperand, encodeOperand]
    rw [takeBytes_append 6 _ _ (by simp)]
    simp [Except.map, beNat_beBytes_of_lt (n := 6) v.isLt]
  | bool b => cases b <;> simp [Operand.type, decodeOperand, encodeOperand]
  | i8 v =>
    simp only [Operand.fits, fitsSignedByte, Bool.and_eq_true, decide_eq_true_eq] at h
    simp only [Operand.type, decodeOperand, encodeOperand]
    rw [takeBytes_append 1 _ _ (by simp)]
    simp only [Except.map, beNat_cons, beNat_nil, List.length_nil, Nat.pow_zero, Nat.mul_one,
      Nat.add_zero, BitVec.ofNat_toNat, BitVec.setWidth_eq, BitVec.toInt_ofInt]
    rw [Int.bmod_eq_of_le (by omega) (by omega)]
  | bytes data =>
    simp only [Operand.fits, fitsLength, decide_eq_true_eq] at h
    simp only [Operand.type, decodeOperand, encodeOperand, List.append_assoc]
    rw [takeBytes_append 2 _ _ (by simp)]
    simp only [beNat_beBytes_of_lt (n := 2) (v := data.length) (by omega)]
    rw [takeBytes_append _ _ _ rfl]
    rfl

end Sys2Proof
end

