-- ==== Sys2Proof/Laws/PerInstr.lean ====
section
/-! SUPPORT. Statements about every command, one lemma per constructor of `Instr`.

`OperandsFit`: the opcode of a command fixes exactly its operands' types (R105, R112), the opcode
map gives the command back, and a well-formed command's operands are ones the encodings carry
(R108). -/

namespace Sys2Proof.Laws.OperandsFit

/-- The opcode map and a command's own operands agree. -/
def Statement (i : Instr) : Prop :=
  operandTypes i.opcode = some (i.operands.map Operand.type) ∧
    Instr.ofOperands i.opcode i.operands = some i ∧
    (WellFormed i = true → ∀ op ∈ i.operands, op.fits = true)

theorem rtpNew (pt : BitVec 8) (seq : BitVec 16) (ts : BitVec 32) (ssrc : BitVec 32) (payload : Bytes) :
    Statement (.rtpNew pt seq ts ssrc payload) :=
  ⟨rfl, rfl, by simp [Instr.operands, Operand.fits, WellFormed]⟩

theorem rtpLoad (data : Bytes) :
    Statement (.rtpLoad data) :=
  ⟨rfl, rfl, by simp [Instr.operands, Operand.fits, WellFormed]⟩

theorem rtpStore :
    Statement .rtpStore :=
  ⟨rfl, rfl, by simp [Instr.operands]⟩

theorem rtpGetP :
    Statement .rtpGetP :=
  ⟨rfl, rfl, by simp [Instr.operands]⟩

theorem rtpGetX :
    Statement .rtpGetX :=
  ⟨rfl, rfl, by simp [Instr.operands]⟩

theorem rtpGetCc :
    Statement .rtpGetCc :=
  ⟨rfl, rfl, by simp [Instr.operands]⟩

theorem rtpGetM :
    Statement .rtpGetM :=
  ⟨rfl, rfl, by simp [Instr.operands]⟩

theorem rtpGetPt :
    Statement .rtpGetPt :=
  ⟨rfl, rfl, by simp [Instr.operands]⟩

theorem rtpGetSeq :
    Statement .rtpGetSeq :=
  ⟨rfl, rfl, by simp [Instr.operands]⟩

theorem rtpGetTs :
    Statement .rtpGetTs :=
  ⟨rfl, rfl, by simp [Instr.operands]⟩

theorem rtpGetSsrc :
    Statement .rtpGetSsrc :=
  ⟨rfl, rfl, by simp [Instr.operands]⟩

theorem rtpSetP (p : Bool) :
    Statement (.rtpSetP p) :=
  ⟨rfl, rfl, by simp [Instr.operands, Operand.fits]⟩

theorem rtpSetX (x : Bool) :
    Statement (.rtpSetX x) :=
  ⟨rfl, rfl, by simp [Instr.operands, Operand.fits]⟩

theorem rtpSetCc (cc : BitVec 8) :
    Statement (.rtpSetCc cc) :=
  ⟨rfl, rfl, by simp [Instr.operands, Operand.fits]⟩

theorem rtpSetM (m : Bool) :
    Statement (.rtpSetM m) :=
  ⟨rfl, rfl, by simp [Instr.operands, Operand.fits]⟩

theorem rtpSetPt (pt : BitVec 8) :
    Statement (.rtpSetPt pt) :=
  ⟨rfl, rfl, by simp [Instr.operands, Operand.fits]⟩

theorem rtpSetSeq (seq : BitVec 16) :
    Statement (.rtpSetSeq seq) :=
  ⟨rfl, rfl, by simp [Instr.operands, Operand.fits]⟩

theorem rtpSetTs (ts : BitVec 32) :
    Statement (.rtpSetTs ts) :=
  ⟨rfl, rfl, by simp [Instr.operands, Operand.fits]⟩

theorem rtpSetSsrc (ssrc : BitVec 32) :
    Statement (.rtpSetSsrc ssrc) :=
  ⟨rfl, rfl, by simp [Instr.operands, Operand.fits]⟩

theorem rtpSetCsrc (list : Bytes) :
    Statement (.rtpSetCsrc list) :=
  ⟨rfl, rfl, by simp [Instr.operands, Operand.fits, WellFormed]⟩

theorem rtpSetHdrExt (profile : BitVec 16) (data : Bytes) :
    Statement (.rtpSetHdrExt profile data) :=
  ⟨rfl, rfl, by simp [Instr.operands, Operand.fits, WellFormed]⟩

theorem rtpSetPayload (data : Bytes) :
    Statement (.rtpSetPayload data) :=
  ⟨rfl, rfl, by simp [Instr.operands, Operand.fits, WellFormed]⟩

theorem rtpSetPadding (sizeMult : BitVec 16) :
    Statement (.rtpSetPadding sizeMult) :=
  ⟨rfl, rfl, by simp [Instr.operands, Operand.fits]⟩

theorem rtpGetPayload :
    Statement .rtpGetPayload :=
  ⟨rfl, rfl, by simp [Instr.operands]⟩

theorem rtpGetCsrc :
    Statement .rtpGetCsrc :=
  ⟨rfl, rfl, by simp [Instr.operands]⟩

theorem rtpGetHdrExt :
    Statement .rtpGetHdrExt :=
  ⟨rfl, rfl, by simp [Instr.operands]⟩

theorem rtpSetGenExt (id : BitVec 8) (data : Bytes) :
    Statement (.rtpSetGenExt id data) :=
  ⟨rfl, rfl, by simp [Instr.operands, Operand.fits, WellFormed]⟩

theorem rtpGetGenExt (id : BitVec 8) :
    Statement (.rtpGetGenExt id) :=
  ⟨rfl, rfl, by simp [Instr.operands, Operand.fits]⟩

theorem rtpSetVol (vad : Bool) (dbov : Int) :
    Statement (.rtpSetVol vad dbov) :=
  ⟨rfl, rfl, by simp [Instr.operands, Operand.fits, WellFormed]⟩

theorem rtpGetVol :
    Statement .rtpGetVol :=
  ⟨rfl, rfl, by simp [Instr.operands]⟩

theorem rtpSetOhb (pt : BitVec 8) (seq : BitVec 16) (m : Bool) :
    Statement (.rtpSetOhb pt seq m) :=
  ⟨rfl, rfl, by simp [Instr.operands, Operand.fits]⟩

theorem rtpGetOhb :
    Statement .rtpGetOhb :=
  ⟨rfl, rfl, by simp [Instr.operands]⟩

theorem rtpGetOhbLen :
    Statement .rtpGetOhbLen :=
  ⟨rfl, rfl, by simp [Instr.operands]⟩

theorem rtpEncGcm (roc : BitVec 32) (key : Bytes) (salt : Bytes) :
    Statement (.rtpEncGcm roc key salt) :=
  ⟨rfl, rfl, by simp [Instr.operands, Operand.fits, WellFormed]⟩

theorem rtpDecGcm (roc : BitVec 32) (key : Bytes) (salt : Bytes) :
    Statement (.rtpDecGcm roc key salt) :=
  ⟨rfl, rfl, by simp [Instr.operands, Operand.fits, WellFormed]⟩

theorem rtcpLoad (data : Bytes) :
    Statement (.rtcpLoad data) :=
  ⟨rfl, rfl, by simp [Instr.operands, Operand.fits, WellFormed]⟩

theorem rtcpLoads (data : Bytes) :
    Statement (.rtcpLoads data) :=
  ⟨rfl, rfl, by simp [Instr.operands, Operand.fits, WellFormed]⟩

theorem rtcpStore :
    Statement .rtcpStore :=
  ⟨rfl, rfl, by simp [Instr.operands]⟩

theorem rtcpGetPt :
    Statement .rtcpGetPt :=
  ⟨rfl, rfl, by simp [Instr.operands]⟩

theorem rtcpGetLenW :
    Statement .rtcpGetLenW :=
  ⟨rfl, rfl, by simp [Instr.operands]⟩

theorem rtcpGetLenB :
    Statement .rtcpGetLenB :=
  ⟨rfl, rfl, by simp [Instr.operands]⟩

theorem rtcpGetSsrc :
    Statement .rtcpGetSsrc :=
  ⟨rfl, rfl, by simp [Instr.operands]⟩

theorem rtcpGetIndex :
    Statement .rtcpGetIndex :=
  ⟨rfl, rfl, by simp [Instr.operands]⟩

theorem rtcpGetE :
    Statement .rtcpGetE :=
  ⟨rfl, rfl, by simp [Instr.operands]⟩

theorem rtcpSetPt (pt : BitVec 8) :
    Statement (.rtcpSetPt pt) :=
  ⟨rfl, rfl, by simp [Instr.operands, Operand.fits]⟩

theorem rtcpSetLenW (words : BitVec 16) :
    Statement (.rtcpSetLenW words) :=
  ⟨rfl, rfl, by simp [Instr.operands, Operand.fits]⟩

theorem rtcpSetSsrc (ssrc : BitVec 32) :
    Statement (.rtcpSetSsrc ssrc) :=
  ⟨rfl, rfl, by simp [Instr.operands, Operand.fits]⟩

theorem rtcpSetIndex (index : BitVec 32) :
    Statement (.rtcpSetIndex index) :=
  ⟨rfl, rfl, by simp [Instr.operands, Operand.fits]⟩

theorem rtcpSetE (e : Bool) :
    Statement (.rtcpSetE e) :=
  ⟨rfl, rfl, by simp [Instr.operands, Operand.fits]⟩

theorem rtcpEncGcm (key : Bytes) (salt : Bytes) :
    Statement (.rtcpEncGcm key salt) :=
  ⟨rfl, rfl, by simp [Instr.operands, Operand.fits, WellFormed]⟩

theorem rtcpDecGcm (key : Bytes) (salt : Bytes) :
    Statement (.rtcpDecGcm key salt) :=
  ⟨rfl, rfl, by simp [Instr.operands, Operand.fits, WellFormed]⟩

theorem kdfInit (key : Bytes) (salt : Bytes) :
    Statement (.kdfInit key salt) :=
  ⟨rfl, rfl, by simp [Instr.operands, Operand.fits, WellFormed]⟩

theorem kdfDerive (label : BitVec 8) (index : BitVec 48) (size : BitVec 16) :
    Statement (.kdfDerive label index size) :=
  ⟨rfl, rfl, by simp [Instr.operands, Operand.fits]⟩

theorem kdfDeriveStream (cipher : BitVec 16) :
    Statement (.kdfDeriveStream cipher) :=
  ⟨rfl, rfl, by simp [Instr.operands, Operand.fits]⟩

theorem sesSetSrtp (cipher : BitVec 16) (useEkt : Bool) (key : Bytes) (salt : Bytes) :
    Statement (.sesSetSrtp cipher useEkt key salt) :=
  ⟨rfl, rfl, by simp [Instr.operands, Operand.fits, WellFormed]⟩

theorem sesSetExtMap (id : BitVec 8) (uri : Bytes) :
    Statement (.sesSetExtMap id uri) :=
  ⟨rfl, rfl, by simp [Instr.operands, Operand.fits, WellFormed]⟩

theorem sesSetRewrite (on : Bool) :
    Statement (.sesSetRewrite on) :=
  ⟨rfl, rfl, by simp [Instr.operands, Operand.fits]⟩

theorem sesSetSeq (seq : BitVec 16) :
    Statement (.sesSetSeq seq) :=
  ⟨rfl, rfl, by simp [Instr.operands, Operand.fits]⟩

theorem sesEncode :
    Statement .sesEncode :=
  ⟨rfl, rfl, by simp [Instr.operands]⟩

theorem sesDecode (wire : Bytes) :
    Statement (.sesDecode wire) :=
  ⟨rfl, rfl, by simp [Instr.operands, Operand.fits, WellFormed]⟩

theorem sesEncRtcp :
    Statement .sesEncRtcp :=
  ⟨rfl, rfl, by simp [Instr.operands]⟩

theorem sesDecRtcp (wire : Bytes) :
    Statement (.sesDecRtcp wire) :=
  ⟨rfl, rfl, by simp [Instr.operands, Operand.fits, WellFormed]⟩

theorem sesGetSeq :
    Statement .sesGetSeq :=
  ⟨rfl, rfl, by simp [Instr.operands]⟩

theorem sesGetRoc :
    Statement .sesGetRoc :=
  ⟨rfl, rfl, by simp [Instr.operands]⟩

end Sys2Proof.Laws.OperandsFit
end

