-- ==== Sys2Proof/Tests/Slice0.lean ====
section
/-! SUPPORT. Our own tests: ill-formed terms, descriptors written out from R105, R108 and R112, the
check values of the crypto primitives, single steps whose responses are the vectors of
spec/95_test_vectors.md and spec/96_test_vectors_crypto.md, and for each statement with hypotheses a
state and operands that meet them.

Expected bytes are the spec's.  `V<n>` and `S<n>` name its vectors. -/

set_option Elab.async false

namespace Sys2Proof.Tests

open Sys2Proof Sys2Proof.Machine

/-- The `n` bytes of a hexadecimal literal, first byte first. -/
def hex (n v : Nat) : Bytes := beBytes n v

/-- Reset with `SEQ0` = 0x1234, as the vectors have it. -/
def fresh : State := { State.reset with ses := { Ses.reset 0 with seq := 0x1234#16 } }

/-- A state with one descriptor presented. -/
def State.given (s : State) (d : Bytes) : State := { s with inputs := [.command d] }

/-- The state one step leaves after a descriptor is presented. -/
def run (s : State) (d : Bytes) : State :=
  match Machine.step (State.given s d) with
  | .next t => t
  | _ => s

/-- The response to one descriptor. -/
def reply (s : State) (d : Bytes) : Bytes := (run s d).responses.getLastD []

/-- The state a command leaves. -/
def after (i : Instr) (s : State) : State :=
  match Machine.exec i s with
  | .next t => t
  | _ => s

/-- A command answers the given descriptor, and with `OK` alone when none is given. -/
def answers (i : Instr) (s : State) (r : Bytes := [0x00#8]) : Bool :=
  (after i s).responses == s.responses ++ [r]

/-! ## Well-formedness: one ill-formed term per check -/

/-- One byte more than a length prefix can count. -/
def tooLong : Bytes := List.replicate 65536 0x00#8

/-- R108: 65536 bytes do not fit. -/
theorem test_too_long : fitsLength tooLong = false := by
  rw [fitsLength, tooLong, List.length_replicate]; decide

/-- R108: no `bytes` operand is longer than its length prefix can say. -/
theorem test_overlong_operands_are_ill_formed :
    WellFormed (.rtpNew 8#8 0#16 33#32 44#32 tooLong) = false ∧
    WellFormed (.rtpLoad tooLong) = false ∧
    WellFormed (.rtpSetCsrc tooLong) = false ∧
    WellFormed (.rtpSetHdrExt 0xBEDE#16 tooLong) = false ∧
    WellFormed (.rtpSetPayload tooLong) = false ∧
    WellFormed (.rtpSetGenExt 1#8 tooLong) = false ∧
    WellFormed (.rtpEncGcm 0#32 tooLong []) = false ∧
    WellFormed (.rtpEncGcm 0#32 [] tooLong) = false ∧
    WellFormed (.rtpDecGcm 0#32 tooLong []) = false ∧
    WellFormed (.rtpDecGcm 0#32 [] tooLong) = false ∧
    WellFormed (.rtcpLoad tooLong) = false ∧
    WellFormed (.rtcpLoads tooLong) = false ∧
    WellFormed (.rtcpEncGcm tooLong []) = false ∧
    WellFormed (.rtcpEncGcm [] tooLong) = false ∧
    WellFormed (.rtcpDecGcm tooLong []) = false ∧
    WellFormed (.rtcpDecGcm [] tooLong) = false ∧
    WellFormed (.kdfInit tooLong []) = false ∧
    WellFormed (.kdfInit [] tooLong) = false ∧
    WellFormed (.sesSetSrtp 7#16 true tooLong []) = false ∧
    WellFormed (.sesSetSrtp 7#16 true [] tooLong) = false ∧
    WellFormed (.sesSetExtMap 1#8 tooLong) = false ∧
    WellFormed (.sesDecode tooLong) = false ∧
    WellFormed (.sesDecRtcp tooLong) = false := by
  simp only [WellFormed, test_too_long, Bool.and_false, Bool.false_and, and_self]

/-- R108: an `i8` operand is a signed byte; both ends are well-formed, the values beyond are not. -/
theorem test_signed_byte_range :
    WellFormed (.rtpSetVol true (-129)) = false ∧ WellFormed (.rtpSetVol true 128) = false ∧
    WellFormed (.rtpSetVol true (-128)) = true ∧ WellFormed (.rtpSetVol true 127) = true := by
  decide

/-- R108: 65535 bytes are the most an operand can have. -/
theorem test_longest_operand_is_well_formed :
    WellFormed (.rtpLoad (List.replicate 65535 0x00#8)) = true := by
  rw [WellFormed, fitsLength, List.length_replicate]; decide

/-! ## Decoding: words written out from R105, R108, R112 -/

/-- R112, opcodes 10 to 12. -/
theorem test_decode_slot :
    decode (hex 16 0x1061123401020304a5a6a7a80002aabb) =
      .ok (.rtpNew 0x61#8 0x1234#16 0x01020304#32 0xA5A6A7A8#32 [0xAA#8, 0xBB#8]) ∧
    decode (hex 5 0x110002aabb) = .ok (.rtpLoad [0xAA#8, 0xBB#8]) ∧
    decode (hex 1 0x12) = .ok .rtpStore := by
  decide +kernel

/-- R112, opcodes 20 to 27. -/
theorem test_decode_rtp_getters :
    decode (hex 1 0x20) = .ok .rtpGetP ∧
    decode (hex 1 0x21) = .ok .rtpGetX ∧
    decode (hex 1 0x22) = .ok .rtpGetCc ∧
    decode (hex 1 0x23) = .ok .rtpGetM ∧
    decode (hex 1 0x24) = .ok .rtpGetPt ∧
    decode (hex 1 0x25) = .ok .rtpGetSeq ∧
    decode (hex 1 0x26) = .ok .rtpGetTs ∧
    decode (hex 1 0x27) = .ok .rtpGetSsrc := by
  decide +kernel

/-- R112, opcodes 28 to 2F. -/
theorem test_decode_rtp_setters :
    decode (hex 2 0x2801) = .ok (.rtpSetP true) ∧
    decode (hex 2 0x2900) = .ok (.rtpSetX false) ∧
    decode (hex 2 0x2a0f) = .ok (.rtpSetCc 0x0F#8) ∧
    decode (hex 2 0x2b01) = .ok (.rtpSetM true) ∧
    decode (hex 2 0x2c7f) = .ok (.rtpSetPt 0x7F#8) ∧
    decode (hex 3 0x2d1234) = .ok (.rtpSetSeq 0x1234#16) ∧
    decode (hex 5 0x2e01020304) = .ok (.rtpSetTs 0x01020304#32) ∧
    decode (hex 5 0x2fa5a6a7a8) = .ok (.rtpSetSsrc 0xA5A6A7A8#32) := by
  decide +kernel

/-- R112, opcodes 30 to 36. -/
theorem test_decode_sections :
    decode (hex 5 0x300002aabb) = .ok (.rtpSetCsrc [0xAA#8, 0xBB#8]) ∧
    decode (hex 7 0x31bede0002aabb) = .ok (.rtpSetHdrExt 0xBEDE#16 [0xAA#8, 0xBB#8]) ∧
    decode (hex 5 0x320002aabb) = .ok (.rtpSetPayload [0xAA#8, 0xBB#8]) ∧
    decode (hex 3 0x330104) = .ok (.rtpSetPadding 0x0104#16) ∧
    decode (hex 1 0x34) = .ok .rtpGetPayload ∧
    decode (hex 1 0x35) = .ok .rtpGetCsrc ∧
    decode (hex 1 0x36) = .ok .rtpGetHdrExt := by
  decide +kernel

/-- R112, opcodes 40 to 4A. -/
theorem test_decode_extensions_and_ohb :
    decode (hex 6 0x400b0002aabb) = .ok (.rtpSetGenExt 11#8 [0xAA#8, 0xBB#8]) ∧
    decode (hex 2 0x410b) = .ok (.rtpGetGenExt 11#8) ∧
    decode (hex 3 0x4201f4) = .ok (.rtpSetVol true (-12)) ∧
    decode (hex 1 0x43) = .ok .rtpGetVol ∧
    decode (hex 5 0x4860123401) = .ok (.rtpSetOhb 0x60#8 0x1234#16 true) ∧
    decode (hex 1 0x49) = .ok .rtpGetOhb ∧
    decode (hex 1 0x4a) = .ok .rtpGetOhbLen := by
  decide +kernel

/-- R112, opcodes 4C and 4D. -/
theorem test_decode_rtp_aead :
    decode (hex 12 0x4c000100020002aabb0001cc) =
      .ok (.rtpEncGcm 0x00010002#32 [0xAA#8, 0xBB#8] [0xCC#8]) ∧
    decode (hex 12 0x4d000100020002aabb0001cc) =
      .ok (.rtpDecGcm 0x00010002#32 [0xAA#8, 0xBB#8] [0xCC#8]) := by
  decide +kernel

/-- R112, opcodes 50 to 58. -/
theorem test_decode_rtcp_reads :
    decode (hex 5 0x500002aabb) = .ok (.rtcpLoad [0xAA#8, 0xBB#8]) ∧
    decode (hex 5 0x510002aabb) = .ok (.rtcpLoads [0xAA#8, 0xBB#8]) ∧
    decode (hex 1 0x52) = .ok .rtcpStore ∧
    decode (hex 1 0x53) = .ok .rtcpGetPt ∧
    decode (hex 1 0x54) = .ok .rtcpGetLenW ∧
    decode (hex 1 0x55) = .ok .rtcpGetLenB ∧
    decode (hex 1 0x56) = .ok .rtcpGetSsrc ∧
    decode (hex 1 0x57) = .ok .rtcpGetIndex ∧
    decode (hex 1 0x58) = .ok .rtcpGetE := by
  decide +kernel

/-- R112, opcodes 59 to 5F. -/
theorem test_decode_rtcp_writes :
    decode (hex 2 0x59c9) = .ok (.rtcpSetPt 0xC9#8) ∧
    decode (hex 3 0x5a0102) = .ok (.rtcpSetLenW 0x0102#16) ∧
    decode (hex 5 0x5ba5a6a7a8) = .ok (.rtcpSetSsrc 0xA5A6A7A8#32) ∧
    decode (hex 5 0x5c000005d4) = .ok (.rtcpSetIndex 0x000005D4#32) ∧
    decode (hex 2 0x5d01) = .ok (.rtcpSetE true) ∧
    decode (hex 8 0x5e0002aabb0001cc) = .ok (.rtcpEncGcm [0xAA#8, 0xBB#8] [0xCC#8]) ∧
    decode (hex 8 0x5f0002aabb0001cc) = .ok (.rtcpDecGcm [0xAA#8, 0xBB#8] [0xCC#8]) := by
  decide +kernel

/-- R112, opcodes 60 to 62. -/
theorem test_decode_kdf :
    decode (hex 8 0x600002aabb0001cc) = .ok (.kdfInit [0xAA#8, 0xBB#8] [0xCC#8]) ∧
    decode (hex 10 0x61050102030405060014) = .ok (.kdfDerive 5#8 0x010203040506#48 20#16) ∧
    decode (hex 3 0x620007) = .ok (.kdfDeriveStream 7#16) := by
  decide +kernel

/-- R112, opcodes 70 to 79. -/
theorem test_decode_ses :
    decode (hex 11 0x700007010002aabb0001cc) =
      .ok (.sesSetSrtp 7#16 true [0xAA#8, 0xBB#8] [0xCC#8]) ∧
    decode (hex 6 0x710b0002aabb) = .ok (.sesSetExtMap 11#8 [0xAA#8, 0xBB#8]) ∧
    decode (hex 2 0x7201) = .ok (.sesSetRewrite true) ∧
    decode (hex 3 0x73002a) = .ok (.sesSetSeq 42#16) ∧
    decode (hex 1 0x74) = .ok .sesEncode ∧
    decode (hex 5 0x750002aabb) = .ok (.sesDecode [0xAA#8, 0xBB#8]) ∧
    decode (hex 1 0x76) = .ok .sesEncRtcp ∧
    decode (hex 5 0x770002aabb) = .ok (.sesDecRtcp [0xAA#8, 0xBB#8]) ∧
    decode (hex 1 0x78) = .ok .sesGetSeq ∧
    decode (hex 1 0x79) = .ok .sesGetRoc := by
  decide +kernel

/-- R107: the refusals by name, from the boundary cases V1 to V9. -/
theorem test_decode_refusals :
    decode [] = .error .emptyDescriptor ∧
    decode [0x13#8] = .error (.unassignedOpcode 0x13#8) ∧
    decode [0xFF#8] = .error (.unassignedOpcode 0xFF#8) ∧
    decode [0x20#8, 0x00#8] = .error .trailingBytes ∧
    decode [0x2B#8, 0x02#8] = .error (.illegalBool 0x02#8) ∧
    decode (hex 7 0x32000501020304) = .error .truncatedOperand ∧
    decode (hex 8 0x3200030102030405) = .error .trailingBytes := by
  decide +kernel

/-- The table numbers bits from the first byte: 0x2A002D is the descriptor `2D 00 2A`; operand bytes
above `nbits` are zero. -/
theorem test_table_words :
    decodeTableWord 24 0x2A002D = some (.rtpSetSeq 0x002A#16) ∧
    decodeTableWord 8 0x11 = some (.rtpLoad []) ∧ decodeTableWord 8 0x13 = none := by
  decide +kernel

/-- `withFetchWord` presents the word's descriptor, and the next step runs it. -/
theorem test_fetch_word :
    (fresh.withFetchWord 8 0x78).inputs = [.command [0x78#8]] ∧
    reply fresh [0x78#8] = hex 3 0x001234 := by
  decide +kernel

/-! ## Crypto primitives (check values of spec/49_crypto_primitives.md) -/

/-- R313: round keys 1 and 10 of the key `00 01 .. 0f`. -/
theorem test_round_keys :
    (roundKeys (hex 16 0x000102030405060708090a0b0c0d0e0f)).getD 1 [] =
      hex 16 0xd6aa74fdd2af72fadaa678f1d6ab76fe ∧
    (roundKeys (hex 16 0x000102030405060708090a0b0c0d0e0f)).getD 10 [] =
      hex 16 0x13111d7fe3944a17f307a78b4d2b30c5 := by
  decide +kernel

/-- R314: AES-128 and AES-256 of `00 11 .. ff`. -/
theorem test_aes :
    aesEnc (hex 16 0x000102030405060708090a0b0c0d0e0f) 0x00112233445566778899aabbccddeeff#128 =
      0x69c4e0d86a7b0430d8cdb78070b4c55a#128 ∧
    aesEnc (hex 32 0x000102030405060708090a0b0c0d0e0f101112131415161718191a1b1c1d1e1f) 0x00112233445566778899aabbccddeeff#128 =
      0x8ea2b7ca516745bfeafc49904b496089#128 := by
  decide +kernel

/-- Section 2.12 of spec/96_test_vectors_crypto.md, S6: the GHASH of its three blocks. -/
theorem test_ghash :
    ghash 0xfc4737916380b9c8d559735e93e482d8#128
      (hex 48 0x8008002a000000210000002c00000000520253e5c9581b00000000000000000000000000000000600000000000000038) =
      0xf8772e054000dbc5dbeb7a281c3eecc6#128 := by
  decide +kernel

/-- R325: sealing nothing under zeros. -/
theorem test_gcm_empty :
    gcmSeal (zeros 16) (zeros 12) [] [] = ([], hex 16 0x58e2fccefa7e3061367f1d57a4e7455a) := by
  decide +kernel

/-! ## States the vectors start from -/

/-- State A: `RTP.NEW 8, 0, 33, 44, 01020304`. -/
def slotA : State := run fresh (hex 18 0x10080000000000210000002c000401020304)

/-- State B: the header of S2. -/
def slotB : State := run fresh (hex 15 0x11000c8040f17b8041f8d35501a0b2)

/-- A bare header: `RTP.NEW 8, 0, 33, 44`. -/
def bare : State := run fresh (hex 14 0x10080000000000210000002c0000)

/-- V55, V66: the bare header with a one-element block and five payload bytes. -/
def extended : State := run (run bare (hex 9 0x31bede0004b08c0000)) (hex 8 0x3200050102030405)

/-- S5: the bare header with the 12-byte block. -/
def scanS5 : State := run bare (hex 17 0x31bede000ca001b101020000c301020304)

/-- V121: the bare header with id 11 mapped to the audio-level URI. -/
def mapped : State := run bare (hex 47 0x710b002b75726e3a696574663a706172616d733a7274702d6864726578743a737372632d617564696f2d6c6576656c)

/-- State O: `RTP.NEW 8, 42, 33, 44, 01020304`. -/
def originalO : State := run fresh (hex 18 0x1008002a000000210000002c000401020304)

/-- V157: state O with an OHB for all three fields. -/
def ohb3 : State := run originalO (hex 5 0x4860000701)

/-- The packet of S2. -/
def plainS2 : State := run fresh (hex 53 0x1100328040f17b8041f8d35501a0b247616c6c696120657374206f6d6e69732064697669736120696e207061727465732074726573)

/-- The encrypted packet of S2. -/
def sealedS2 : State := run fresh (hex 69 0x1100428040f17b8041f8d35501a0b2f24de3a3fb34de6cacba861c9d7e4bcabe633bd50d294e6f42a5f47a51c7d19b36de3adf8833899d7f27beb16a9152cf765ee4390cce)

/-- V186: the compound packet of S3 with its SRTCP index. -/
def plainS3 : State := run (run fresh (hex 55 0x50003481c8000d4d6172734e5450314e545032525450200000042a0000e9304c756e61deadbeefdeadbeefdeadbeefdeadbeefdeadbeef)) (hex 5 0x5c000005d4)

/-- V198: the wire buffer of S3. -/
def sealedS3 : State := run fresh (hex 75 0x51004881c8000d4d617273d50ae4d1f5ce5d304ba297e47d470c282c3ece5dbffe0a50a2eaa5c1110555be8415f658c61de0476f1b6fad1d1eb30c4446839f57ff6f6cb26ac3be800005d4)

/-- V214: the master key and salt of S1. -/
def keyS1 : State := run fresh (hex 35 0x600010e1f97a0d3e018be0d64fa32c06de4139000e0ec675ad498afeebb6960b3aabe6)

/-- V304: the session of S6 with its keys and salts as V232 gives them, state A in the slot. -/
def keyed : State :=
  { slotA with ses := { slotA.ses with
      state := .keyed, cipher := 7#16, useEkt := true, klen := 16,
      rtpKey := hex 16 0x658ea2cd1ddadd5894d8b21ed3dd912f ++ zeros 16,
      rtpSalt := hex 12 0xc001df8e27d48bd10c176c41,
      rtcpKey := hex 16 0x93defd84fef4053cd256414c3ff7342e ++ zeros 16,
      rtcpSalt := hex 12 0xb7855118c47c4cf9fdd31e22 } }

/-- V310: rewrite on, sequence number 42. -/
def sessionS6 : State := run (run keyed (hex 2 0x7201)) (hex 3 0x73002a)

/-- V336: no EKT, rewrite on, sequence number 0xFFFF, the packet has 7. -/
def sessionW : State :=
  run { keyed with ses := { keyed.ses with useEkt := false, rewrite := true, seq := 0xFFFF#16 } }
    (hex 18 0x10080007000000210000002c000401020304)

/-- V360: the session of S6, an empty compound packet with index 1. -/
def rtcpS6 : State := run (run sessionS6 (hex 11 0x50000880c90001aabbccdd)) (hex 5 0x5c00000001)

/-! ## Single steps: descriptor and response of the vectors -/

/-- R130, R132: V13, V15, V14. -/
theorem test_new_and_store :
    reply fresh (hex 18 0x10080000000000210000002c000401020304) = (hex 1 0x00) ∧
    reply fresh (hex 14 0x1080000000000000000000000000) = (hex 1 0x02) ∧
    reply slotA (hex 1 0x12) = (hex 19 0x00001080080000000000210000002c01020304) := by
  decide +kernel

/-- R131: V20, V23. -/
theorem test_load :
    reply fresh (hex 14 0x11000b0000000000000000000000) = (hex 1 0x02) ∧
    reply fresh (hex 15 0x11000c8040f17b8041f8d35501a0b2) = (hex 1 0x00) := by
  decide +kernel

/-- R133 to R140: V24 to V31, V11. -/
theorem test_rtp_getters :
    reply slotB (hex 1 0x20) = (hex 2 0x0000) ∧
    reply slotB (hex 1 0x21) = (hex 2 0x0000) ∧
    reply slotB (hex 1 0x22) = (hex 2 0x0000) ∧
    reply slotB (hex 1 0x23) = (hex 2 0x0000) ∧
    reply slotB (hex 1 0x24) = (hex 2 0x0040) ∧
    reply slotB (hex 1 0x25) = (hex 3 0x00f17b) ∧
    reply slotB (hex 1 0x26) = (hex 5 0x008041f8d3) ∧
    reply slotB (hex 1 0x27) = (hex 5 0x005501a0b2) ∧
    reply fresh (hex 1 0x24) = (hex 1 0x07) := by
  decide +kernel

/-- R144: V32; only bit 7 of octet 1 changes. -/
theorem test_set_m : reply (run slotB (hex 2 0x2b01)) (hex 1 0x12) =
    (hex 15 0x00000c80c0f17b8041f8d35501a0b2) := by
  decide +kernel

/-- R145: V34 from B; the marker is kept. -/
theorem test_set_pt : reply (run (run slotB [0x2B#8, 0x01#8]) (hex 2 0x2c7f)) (hex 1 0x12) =
    (hex 15 0x00000c80fff17b8041f8d35501a0b2) := by
  decide +kernel

/-- R141: V37; octet 0. -/
theorem test_set_p : reply (run slotB (hex 2 0x2801)) (hex 1 0x12) =
    (hex 15 0x00000ca040f17b8041f8d35501a0b2) := by
  decide +kernel

/-- R142: V38; octet 0. -/
theorem test_set_x : reply (run slotB (hex 2 0x2901)) (hex 1 0x12) =
    (hex 15 0x00000c9040f17b8041f8d35501a0b2) := by
  decide +kernel

/-- R143: V39; the count only. -/
theorem test_set_cc : reply (run slotB (hex 2 0x2a0f)) (hex 1 0x12) =
    (hex 15 0x00000c8f40f17b8041f8d35501a0b2) := by
  decide +kernel

/-- R146: V42. -/
theorem test_set_seq : reply (run slotB (hex 3 0x2dffff)) (hex 1 0x12) =
    (hex 15 0x00000c8040ffff8041f8d35501a0b2) := by
  decide +kernel

/-- R147: V43. -/
theorem test_set_ts : reply (run slotB (hex 5 0x2e01020304)) (hex 1 0x12) =
    (hex 15 0x00000c8040f17b010203045501a0b2) := by
  decide +kernel

/-- R148: V44. -/
theorem test_set_ssrc : reply (run slotB (hex 5 0x2fdeadbeef)) (hex 1 0x12) =
    (hex 15 0x00000c8040f17b8041f8d3deadbeef) := by
  decide +kernel

/-- R143, R145: V40, V36. -/
theorem test_setter_ranges :
    reply slotB (hex 2 0x2a10) = (hex 1 0x02) ∧
    reply slotB (hex 2 0x2c80) = (hex 1 0x02) := by
  decide +kernel

/-- R162: V46, V47; the payload is gone. -/
theorem test_set_csrc : reply (run slotA (hex 11 0x3000080000000a0000000b)) (hex 1 0x12) =
    (hex 23 0x00001482080000000000210000002c0000000a0000000b) := by
  decide +kernel

/-- R162: V50, V51. -/
theorem test_set_csrc_errors :
    reply slotA (hex 6 0x300003010203) = (hex 1 0x07) ∧
    reply slotA (hex 67 0x30004000000000000000000000000000000000000000000000000000000000000000000000000000000000000000000000000000000000000000000000000000000000) =
      (hex 1 0x02) := by
  decide +kernel

/-- R167: V48. -/
theorem test_get_csrc : reply (run slotA (hex 11 0x3000080000000a0000000b)) (hex 1 0x35) =
    (hex 11 0x0000080000000a0000000b) := by
  decide +kernel

/-- R163: V58, V59; an empty block. -/
theorem test_set_hdr_ext : reply (run bare (hex 5 0x3112340000)) (hex 1 0x12) =
    (hex 19 0x00001090080000000000210000002c12340000) := by
  decide +kernel

/-- R168: V55, V56. -/
theorem test_get_hdr_ext : reply (run bare (hex 9 0x31bede0004b08c0000)) (hex 1 0x36) =
    (hex 10 0x0001bede0004b08c0000) := by
  decide +kernel

/-- R164: V371, V372. -/
theorem test_set_payload : reply (run slotA (hex 4 0x3200017f)) (hex 1 0x12) =
    (hex 16 0x00000d80080000000000210000002c7f) := by
  decide +kernel

/-- R165: V65 with V66, and on the bare header. -/
theorem test_get_payload :
    reply extended (hex 1 0x34) = (hex 8 0x0000050102030405) ∧
    reply bare (hex 1 0x34) = (hex 3 0x000000) := by
  decide +kernel

/-- R166: V67, V68. -/
theorem test_set_padding : reply (run extended (hex 3 0x330004)) (hex 1 0x12) =
    (hex 31 0x00001cb0080000000000210000002cbede0001b08c00000102030405000003) := by
  decide +kernel

/-- R166: V71, V72. -/
theorem test_set_padding_errors :
    reply extended (hex 3 0x330000) = (hex 1 0x02) ∧
    reply extended (hex 3 0x33012c) = (hex 1 0x02) := by
  decide +kernel

/-- R183: V90 to V93. -/
theorem test_get_gen_ext :
    reply scanS5 (hex 2 0x410a) = (hex 5 0x0001000101) ∧
    reply scanS5 (hex 2 0x410b) = (hex 6 0x000100020102) ∧
    reply scanS5 (hex 2 0x410c) = (hex 8 0x0001000401020304) ∧
    reply scanS5 (hex 2 0x4101) = (hex 4 0x00000000) := by
  decide +kernel

/-- R182: V106, V107. -/
theorem test_set_gen_ext : reply (run bare (hex 7 0x40010003010203)) (hex 1 0x36) =
    (hex 10 0x0001bede000412010203) := by
  decide +kernel

/-- R182: V96, V110, V111, V112. -/
theorem test_set_gen_ext_errors :
    reply scanS5 (hex 5 0x4005000101) = (hex 1 0x06) ∧
    reply bare (hex 5 0x4000000101) = (hex 1 0x02) ∧
    reply bare (hex 5 0x400f000101) = (hex 1 0x02) ∧
    reply bare (hex 4 0x40010000) = (hex 1 0x02) := by
  decide +kernel

/-- R185: V122; the element `B0 8C`. -/
theorem test_set_vol : reply (run mapped (hex 3 0x4201f4)) (hex 1 0x12) =
    (hex 23 0x00001490080000000000210000002cbede0001b08c0000) := by
  decide +kernel

/-- R186: V130, V131. -/
theorem test_get_vol : reply (run mapped (hex 3 0x420181)) (hex 1 0x43) = (hex 4 0x00010181) := by
  decide +kernel

/-- R185, R186: V116, V117, V132, V133. -/
theorem test_vol_errors :
    reply bare (hex 3 0x4201f4) = (hex 1 0x02) ∧
    reply bare (hex 1 0x43) = (hex 4 0x00000000) ∧
    reply mapped (hex 3 0x420180) = (hex 1 0x02) ∧
    reply mapped (hex 3 0x420001) = (hex 1 0x02) := by
  decide +kernel

/-- R201: V157, V158. -/
theorem test_set_ohb : reply (run originalO (hex 5 0x4860000701)) (hex 1 0x34) =
    (hex 11 0x000008010203046000070f) := by
  decide +kernel

/-- R203: V160, V169. -/
theorem test_get_ohb :
    reply ohb3 (hex 1 0x49) = (hex 5 0x0060000701) ∧
    reply bare (hex 1 0x49) = (hex 1 0x02) := by
  decide +kernel

/-- R202: V159. -/
theorem test_get_ohb_len :
    reply ohb3 (hex 1 0x4a) = (hex 2 0x0004) := by
  decide +kernel

/-- R262, S2: V239, V240. -/
theorem test_rtp_enc_gcm : reply (run plainS2 (hex 37 0x4c000000000010000102030405060708090a0b0c0d0e0f000c517569642070726f2071756f)) (hex 1 0x12) =
    (hex 69 0x0000428040f17b8041f8d35501a0b2f24de3a3fb34de6cacba861c9d7e4bcabe633bd50d294e6f42a5f47a51c7d19b36de3adf8833899d7f27beb16a9152cf765ee4390cce) := by
  decide +kernel

/-- R263, S2: V247, V248. -/
theorem test_rtp_dec_gcm : reply (run sealedS2 (hex 37 0x4d000000000010000102030405060708090a0b0c0d0e0f000c517569642070726f2071756f)) (hex 1 0x12) =
    (hex 53 0x0000328040f17b8041f8d35501a0b247616c6c696120657374206f6d6e69732064697669736120696e207061727465732074726573) := by
  decide +kernel

/-- R263: V241. -/
theorem test_rtp_dec_gcm_wrong_roc :
    reply sealedS2 (hex 37 0x4d000000010010000102030405060708090a0b0c0d0e0f000c517569642070726f2071756f) =
      (hex 1 0x05) := by
  decide +kernel

/-- R211, R212: V175, V176; R213: V190 before the E-flag. -/
theorem test_rtcp_loads :
    reply fresh (hex 10 0x50000781c8000d4d6172) = (hex 1 0x02) ∧
    reply fresh (hex 14 0x51000b81c8000d4d617273800005) = (hex 1 0x02) ∧
    reply plainS3 (hex 1 0x52) =
      (hex 59 0x00003881c8000d4d6172734e5450314e545032525450200000042a0000e9304c756e61deadbeefdeadbeefdeadbeefdeadbeefdeadbeef000005d4) := by
  decide +kernel

/-- R214 to R219: V179 to V182, V199, V200. -/
theorem test_rtcp_getters :
    reply plainS3 (hex 1 0x53) = (hex 2 0x00c8) ∧
    reply plainS3 (hex 1 0x54) = (hex 3 0x00000d) ∧
    reply plainS3 (hex 1 0x55) = (hex 5 0x0000000038) ∧
    reply plainS3 (hex 1 0x56) = (hex 5 0x004d617273) ∧
    reply sealedS3 (hex 1 0x57) = (hex 5 0x00000005d4) ∧
    reply sealedS3 (hex 1 0x58) = (hex 2 0x0001) := by
  decide +kernel

/-- R220: V193. -/
theorem test_rtcp_set_pt : reply (run plainS3 (hex 2 0x59c9)) (hex 1 0x52) =
    (hex 59 0x00003881c9000d4d6172734e5450314e545032525450200000042a0000e9304c756e61deadbeefdeadbeefdeadbeefdeadbeefdeadbeef000005d4) := by
  decide +kernel

/-- R221: V194. -/
theorem test_rtcp_set_lenw : reply (run plainS3 (hex 3 0x5affff)) (hex 1 0x52) =
    (hex 59 0x00003881c8ffff4d6172734e5450314e545032525450200000042a0000e9304c756e61deadbeefdeadbeefdeadbeefdeadbeefdeadbeef000005d4) := by
  decide +kernel

/-- R222: V196. -/
theorem test_rtcp_set_ssrc : reply (run plainS3 (hex 5 0x5baabbccdd)) (hex 1 0x52) =
    (hex 59 0x00003881c8000daabbccdd4e5450314e545032525450200000042a0000e9304c756e61deadbeefdeadbeefdeadbeefdeadbeefdeadbeef000005d4) := by
  decide +kernel

/-- R224: V189; the index is kept. -/
theorem test_rtcp_set_e : reply (run plainS3 (hex 2 0x5d01)) (hex 1 0x52) =
    (hex 59 0x00003881c8000d4d6172734e5450314e545032525450200000042a0000e9304c756e61deadbeefdeadbeefdeadbeefdeadbeefdeadbeef800005d4) := by
  decide +kernel

/-- R223: V191, V197; the E-flag is kept. -/
theorem test_rtcp_set_index : reply (run sealedS3 (hex 5 0x5c7fffffff)) (hex 1 0x57) =
    (hex 5 0x007fffffff) := by
  decide +kernel

/-- R223: V185. -/
theorem test_rtcp_set_index_range :
    reply plainS3 (hex 5 0x5c80000000) = (hex 1 0x02) := by
  decide +kernel

/-- R272, S3: V270, V271. -/
theorem test_rtcp_enc_gcm : reply (run plainS3 (hex 49 0x5e0020000102030405060708090a0b0c0d0e0f101112131415161718191a1b1c1d1e1f000c517569642070726f2071756f)) (hex 1 0x52) =
    (hex 75 0x00004881c8000d4d617273d50ae4d1f5ce5d304ba297e47d470c282c3ece5dbffe0a50a2eaa5c1110555be8415f658c61de0476f1b6fad1d1eb30c4446839f57ff6f6cb26ac3be800005d4) := by
  decide +kernel

/-- R273, S3: V284 and V274. -/
theorem test_rtcp_dec_gcm : reply (run sealedS3 (hex 49 0x5f0020000102030405060708090a0b0c0d0e0f101112131415161718191a1b1c1d1e1f000c517569642070726f2071756f)) (hex 1 0x52) =
    (hex 59 0x00003881c8000d4d6172734e5450314e545032525450200000042a0000e9304c756e61deadbeefdeadbeefdeadbeefdeadbeefdeadbeef800005d4) := by
  decide +kernel

/-- R241: V211, V212, V214. -/
theorem test_kdf_init :
    reply fresh (hex 43 0x600018000000000000000000000000000000000000000000000000000e0ec675ad498afeebb6960b3aabe6) =
      (hex 1 0x02) ∧
    reply fresh (hex 36 0x600010e1f97a0d3e018be0d64fa32c06de4139000f000000000000000000000000000000) =
      (hex 1 0x02) ∧
    reply fresh (hex 35 0x600010e1f97a0d3e018be0d64fa32c06de4139000e0ec675ad498afeebb6960b3aabe6) =
      (hex 1 0x00) := by
  decide +kernel

/-- R244, S1: V215, V216, V224, V209. -/
theorem test_kdf_derive :
    reply keyS1 (hex 10 0x61000000000000000010) =
      (hex 19 0x000010c61e7a93744f39ee10734afe3ff7a087) ∧
    reply keyS1 (hex 10 0x6102000000000000000e) = (hex 17 0x00000e30cbbc08863d8c85d49db34a9ae1) ∧
    reply keyS1 (hex 10 0x61060000000000000010) = (hex 1 0x02) ∧
    reply fresh (hex 10 0x61000000000000000010) = (hex 1 0x07) := by
  decide +kernel

/-- R244, R318: V220, V222. -/
theorem test_kdf_derive_second_block :
    reply keyS1 (hex 10 0x61000000000000000011) =
      (hex 20 0x000011c61e7a93744f39ee10734afe3ff7a087cc) ∧
    reply keyS1 (hex 10 0x6105ffffffffffff0014) =
      (hex 23 0x0000145594d8a3aa82040308c51e4696627507f8868fff) := by
  decide +kernel

/-- R247: V226, V228. -/
theorem test_kdf_derive_stream :
    reply keyS1 (hex 3 0x620007) =
      (hex 65 0x000010c61e7a93744f39ee10734afe3ff7a087000c30cbbc08863d8c85d49db34a00104c1aa45a81f73d61c800bbb00fbb1eaa000c9581c7ad87b3e530bf3e4454) ∧
    reply keyS1 (hex 3 0x620009) = (hex 1 0x04) := by
  decide +kernel

/-- R281: V299, V303, V304, V305. -/
theorem test_set_srtp :
    reply fresh (hex 38 0x7000000100100102030405060708090a0b0c0d0e0f10000e0102030405060708090a0b0c0d0e) =
      (hex 1 0x04) ∧
    reply fresh (hex 46 0x700009010018000000000000000000000000000000000000000000000000000e0102030405060708090a0b0c0d0e) =
      (hex 1 0x02) ∧
    reply fresh (hex 38 0x7000070100100102030405060708090a0b0c0d0e0f10000e0102030405060708090a0b0c0d0e) =
      (hex 1 0x00) ∧
    reply keyed (hex 38 0x7000070100100102030405060708090a0b0c0d0e0f10000e0102030405060708090a0b0c0d0e) =
      (hex 1 0x07) := by
  decide +kernel

/-- R282: V118, V119, V120, V121. -/
theorem test_set_ext_map :
    reply bare (hex 47 0x7100002b75726e3a696574663a706172616d733a7274702d6864726578743a737372632d617564696f2d6c6576656c) =
      (hex 1 0x02) ∧
    reply bare (hex 47 0x710f002b75726e3a696574663a706172616d733a7274702d6864726578743a737372632d617564696f2d6c6576656c) =
      (hex 1 0x02) ∧
    reply bare (hex 4 0x71010000) = (hex 1 0x02) ∧
    reply bare (hex 47 0x710b002b75726e3a696574663a706172616d733a7274702d6864726578743a737372632d617564696f2d6c6576656c) =
      (hex 1 0x00) := by
  decide +kernel

/-- R283 to R286: V308, V294, V309, V310. -/
theorem test_sequence_registers :
    reply keyed (hex 1 0x78) = (hex 3 0x001234) ∧
    reply keyed (hex 1 0x79) = (hex 5 0x0000000000) ∧
    reply keyed (hex 2 0x7201) = (hex 1 0x00) ∧
    reply keyed (hex 3 0x73002a) = (hex 1 0x00) := by
  decide +kernel

/-- R287, S6: V311, V295. -/
theorem test_ses_encode :
    reply sessionS6 (hex 1 0x74) =
      (hex 39 0x0000248008002a000000210000002c520253e5c9581b3035417389cedb3889a5cba91b25e94500) ∧
    reply slotA (hex 1 0x74) = (hex 1 0x04) := by
  decide +kernel

/-- R287: V338; ROC is incremented at the wrap. -/
theorem test_ses_encode_advances : reply (run sessionW (hex 1 0x74)) (hex 1 0x79) =
    (hex 5 0x0000000001) := by
  decide +kernel

/-- R290, S6: V315, V316. -/
theorem test_ses_decode : reply (run sessionS6 (hex 39 0x7500248008002a000000210000002c520253e5c9581b3035417389cedb3889a5cba91b25e94500)) (hex 1 0x12) =
    (hex 19 0x00001080080000000000210000002c01020304) := by
  decide +kernel

/-- R289, R290: V318, V320, V326. -/
theorem test_ses_decode_errors :
    reply sessionS6 (hex 39 0x7500248008002a000000210000002c520353e5c9581b3035417389cedb3889a5cba91b25e94500) =
      (hex 1 0x05) ∧
    reply sessionS6 (hex 39 0x7500248008002a000000210000002c520253e5c9581b3035417389cedb3889a5cba91b25e94501) =
      (hex 1 0x03) ∧
    reply sessionS6 (hex 15 0x75000c000000000000000000000000) = (hex 1 0x02) := by
  decide +kernel

/-- R293: V360. -/
theorem test_ses_enc_rtcp :
    reply rtcpS6 (hex 1 0x76) =
      (hex 31 0x00001c80c90001aabbccddff812749a20b542fdafb40a62b9a9a5180000001) := by
  decide +kernel

/-- R294: V361, V362. -/
theorem test_ses_dec_rtcp : reply (run sessionS6 (hex 31 0x77001c80c90001aabbccddff812749a20b542fdafb40a62b9a9a5180000001)) (hex 1 0x52) =
    (hex 15 0x00000c80c90001aabbccdd80000001) := by
  decide +kernel

/-! ## Witnesses: a state and operands that meet the hypotheses of a statement

Each theorem names the statement it serves.  `completes` turns "the command answers a next state with
these properties" into something the kernel evaluates. -/

/-- Whether an outcome is a next state with a property. -/
def nextWith (o : Host.Outcome State Fault Refusal) (q : State → Bool) : Bool :=
  match o with
  | .next t => q t
  | _ => false

/-- An outcome that `nextWith` accepts is a next state with the property. -/
theorem completes {o : Host.Outcome State Fault Refusal} {P : State → Prop} [DecidablePred P]
    (h : nextWith o (fun t => decide (P t)) = true) : ∃ t, o = .next t ∧ P t := by
  cases o with
  | next t => exact ⟨t, rfl, by simpa [nextWith] using h⟩
  | fault r => simp [nextWith] at h
  | refused r => simp [nextWith] at h

theorem witness_DecodeReadsBackEveryEncoding :
    WellFormed (.kdfDerive 255#8 0xFFFFFFFFFFFF#48 65535#16) = true ∧
    WellFormed (.sesSetSrtp 7#16 true (zeros 16) (zeros 14)) = true := by
  decide

theorem witness_DecodedDescriptorIsItsEncoding :
    decode [0x48#8, 0x7F#8, 0xFF#8, 0xFF#8, 0x01#8] = .ok (.rtpSetOhb 0x7F#8 0xFFFF#16 true) := by
  decide

theorem witness_UnassignedOpcodesAreRefused :
    (∀ op ∈ [0x00#8, 0x0F#8, 0x13#8, 0x1F#8, 0x37#8, 0x3F#8, 0x44#8, 0x47#8, 0x4B#8, 0x4E#8, 0x4F#8,
      0x63#8, 0x6F#8, 0x7A#8, 0xFF#8], unassignedOpcode op = true) ∧
    (∀ op ∈ [0x10#8, 0x12#8, 0x20#8, 0x36#8, 0x40#8, 0x43#8, 0x48#8, 0x4A#8, 0x4C#8, 0x4D#8, 0x50#8,
      0x62#8, 0x70#8, 0x79#8], unassignedOpcode op = false) ∧
    (State.given fresh [0x00#8, 0x01#8]).inputs = .command (0x00#8 :: [0x01#8]) :: [] := by
  decide

theorem witness_UndecodableDescriptorsAreRefused :
    (WellFormed (.rtpSetSeq 0x2A#16) = true ∧
      encode (.rtpSetSeq 0x2A#16) = [0x2D#8, 0x00#8] ++ [0x2A#8]) ∧
    (WellFormed .rtpGetP = true ∧ [0x00#8] ≠ ([] : Bytes)) ∧
    operandTypes 0x28#8 = some [.bool] ∧
    decode [0x20#8, 0x00#8] = .error .trailingBytes ∧
    (State.given slotA [0x20#8, 0x00#8]).inputs = .command [0x20#8, 0x00#8] :: [] := by
  decide +kernel

theorem witness_StepRunsTheDecodedCommand :
    (State.given slotA [0x12#8]).inputs = .command [0x12#8] :: [] ∧ decode [0x12#8] =
      .ok .rtpStore ∧
    fresh.inputs = [] := by
  decide +kernel

theorem witness_ResetGivesTheResetValues :
    ({ keyed with inputs := [.reset] } : State).inputs = .reset :: [] := rfl

/-- Also at the largest `SEQ0`, and for the longest payload. -/
theorem witness_CommandsJustAfterReset :
    fresh.AtReset ∧
    ({ fresh with ses := { fresh.ses with seq := 0x7FFF#16 } } : State).AtReset ∧
    needsRtpPacket .rtpStore = true ∧ needsRtcpPacket (.rtcpSetE true) = true ∧
    needsMasterKey (.kdfDeriveStream 7#16) = true ∧ opcodeIn .sesEncode 0x74 0x77 = true ∧
    (127#8).toNat ≤ 127 ∧ (zeros 1488).length ≤ 1488 := by
  decide +kernel

theorem witness_FailedCommandChangesNothing :
    ∃ t, Machine.exec (.rtpSetPt 128#8) slotA = .next t ∧
      t.responses = slotA.responses ++ [0x02#8 :: []] :=
  completes (by decide +kernel)

/-- Each of the five statuses occurs. -/
theorem witness_StatusesOfEachKindOfCommand :
    answers (.sesDecode [0x01#8]) keyed [0x03#8] = true ∧
    answers (.rtpSetGenExt 5#8 [0x01#8]) scanS5 [0x06#8] = true ∧
    answers (.sesDecode (zeros 13)) keyed [0x05#8] = true ∧
    answers .sesEncode slotA [0x04#8] = true ∧
    answers (.rtpLoad (zeros 1501)) slotA [0x01#8] = true ∧
    ∃ t, Machine.exec (.sesDecode [0x01#8]) keyed = .next t ∧
      t.responses = keyed.responses ++ [[0x03#8]] :=
  ⟨by decide +kernel, by decide +kernel, by decide +kernel, by decide +kernel, by decide +kernel,
    completes (by decide +kernel)⟩

theorem witness_IllegalCommandHasExactlyTheseCauses :
    decode [0xFF#8] = .error (.unassignedOpcode 0xFF#8) ∧
    (State.given slotA [0xFF#8]).inputs = .command [0xFF#8] :: [] := by
  decide +kernel

theorem witness_StepKeepsTheInvariant :
    (State.given sessionS6 [0x74#8]).Inv ∧
    ∃ t, Machine.step (State.given sessionS6 [0x74#8]) = .next t ∧ t.pkt.len = 36 :=
  ⟨by decide +kernel, completes (by decide +kernel)⟩

/-- Both edges of the state machine are taken. -/
theorem witness_SessionStateMachine :
    (∃ t, Machine.step (State.given fresh (encode (.sesSetSrtp 7#16 true (zeros 16) []))) =
      .next t ∧
      fresh.ses.state = .fresh ∧ t.ses.state = .keyed) ∧
    ∃ t, Machine.step { keyed with inputs := [.reset] } = .next t ∧
      keyed.ses.state = .keyed ∧ t.ses.state = .fresh :=
  ⟨completes (by decide +kernel), completes (by decide +kernel)⟩

theorem witness_RolloverCounterChangesOnlyByEncode :
    (∃ t, Machine.step (State.given sessionW [0x74#8]) = .next t ∧ t.ses.roc ≠ sessionW.ses.roc) ∧
    ∃ t, Machine.step { keyed with ses := { keyed.ses with roc := 5#32 }, inputs := [.reset] } =
      .next t ∧ t.ses.roc ≠ 5#32 :=
  ⟨completes (by decide +kernel), completes (by decide +kernel)⟩

theorem witness_ReadingCommandsWriteNothing :
    ∀ i ∈ [.rtpStore, .rtpGetP, .rtpGetSsrc, .rtpGetPayload, .rtpGetHdrExt, .rtpGetGenExt 1#8, .rtpGetVol,
      .rtpGetOhb, .rtpGetOhbLen, .rtcpStore, .rtcpGetE, .kdfDerive 0#8 0#48 0#16, .kdfDeriveStream 7#16,
      .sesGetSeq, .sesGetRoc], readsOnly i = true := by
  decide

theorem witness_CommandsWriteOnlyTheirUnits :
    ∃ t, Machine.exec (.rtpSetM true) slotA = .next t ∧ opcodeIn (.rtpSetM true) 0x10 0x4D = true :=
  completes (by decide +kernel)

/-- The second clause, and its boundary of 1500 bytes. -/
theorem witness_RtpLoadAndStore :
    (slotB.pkt.valid = true ∧ slotB.pkt.len = 12) ∧
    ({ slotB with pkt := { slotB.pkt with len := 1500 } } : State).pkt.len ≤ 1500 := by
  decide +kernel

theorem witness_FixedHeaderGetAfterSet :
    (∃ t, Machine.exec (.rtpSetP true) slotB = .next t ∧
      t.responses = slotB.responses ++ [[0x00#8]]) ∧
    ∀ i ∈ [.rtpSetX true, .rtpSetCc 15#8, .rtpSetM true, .rtpSetPt 127#8, .rtpSetSeq 0xFFFF#16,
      .rtpSetTs 1#32, .rtpSetSsrc 1#32], answers i slotB = true :=
  ⟨completes (by decide +kernel), by decide +kernel⟩

theorem witness_SectionGetAfterSet :
    (∃ t, Machine.exec (.rtpSetPayload [0x7F#8]) bare = .next t ∧
      t.responses = bare.responses ++ [[0x00#8]]) ∧
    answers (.rtpSetCsrc (zeros 60)) bare = true ∧
    answers (.rtpSetHdrExt 0x1234#16 (zeros 4)) bare = true :=
  ⟨completes (by decide +kernel), by decide +kernel, by decide +kernel⟩

/-- The element lengths of R85 at both ends. -/
theorem witness_GetGenExtScansTheBlock :
    (15 < 16 ∧ 1 ≤ 1 ∧ 14 ≤ 14 ∧ (zeros 15).length < 15 + 1 ∧ (zeros 16).length = 15 + 1) ∧
    scan (some 14#8) 0 (0xEF#8 :: zeros 16) = some (zeros 16) ∧
    scan (some 1#8) 0 [0x10#8, 0xAA#8] = some [0xAA#8] ∧
    scan (some 14#8) 0 (0xEF#8 :: zeros 15) = none := by
  decide +kernel

theorem witness_GenExtGetAfterSet :
    (∃ t, Machine.exec (.rtpSetGenExt 14#8 (zeros 16)) bare = .next t ∧
      t.responses = bare.responses ++ [[0x00#8]]) ∧ (1#8 : BitVec 8) ≠ 14#8 :=
  ⟨completes (by decide +kernel), by decide⟩

theorem witness_SetVolStoresTheLevel :
    mapped.ses.extMap.length = 14 ∧ mapped.ses.volId = some 11#8 ∧ mapped.pkt.x = false ∧
    answers (.rtpSetVol true (-127)) mapped = true ∧ answers (.rtpSetVol false 0) mapped =
      true := by
  decide +kernel

theorem witness_GetVolReadsTheLevel :
    ∃ t, Machine.exec (.rtpSetVol true (-127)) mapped = .next t ∧
      t.responses = mapped.responses ++ [[0x00#8]] :=
  completes (by decide +kernel)

theorem witness_GetOhbReadsTheBlock :
    originalO.pkt.badPay = false ∧
    ∃ t, Machine.exec (.rtpSetOhb 127#8 7#16 true) originalO = .next t ∧
      t.responses = originalO.responses ++ [[0x00#8]] :=
  ⟨by decide +kernel, completes (by decide +kernel)⟩

theorem witness_RtcpStoreAndReload :
    plainS3.rtcp.valid = true ∧ plainS3.rtcp.esp = true ∧ 8 ≤ plainS3.rtcp.len ∧
    plainS3.rtcp.len + 4 ≤ 1500 := by
  decide +kernel

/-- The last byte of a block and the first of the next. -/
theorem witness_CounterModeKeyStreams :
    15 < 16 ∧ 16 * 0 + 15 < 17 ∧ 0 < 16 ∧ 16 * 1 + 0 < 17 ∧ 16 * 1 + 0 < (zeros 17).length := by
  decide

theorem witness_GcmOpenInvertsSeal : ([] : Bytes) ≠ (gcmSeal (zeros 16) (zeros 12) [] []).2 := by
  rw [(show gcmSeal (zeros 16) (zeros 12) [] [] = ([], _) from test_gcm_empty)]
  decide

/-- Also at the longest packet the tag still fits. -/
theorem witness_RtpAeadRoundTrip :
    (plainS2.pkt.valid = true ∧ plainS2.pkt.badPay = false ∧ plainS2.pkt.len ≤ 1484) ∧
    ({ slotA.pkt with len := 1484 } : Pkt).badPay = false ∧
    ((zeros 16).length = 16 ∧ (zeros 32).length = 32 ∧ (zeros 12).length = 12) := by
  decide +kernel

theorem witness_RtcpAeadRoundTrip :
    plainS3.rtcp.valid = true ∧ 8 ≤ plainS3.rtcp.len ∧ plainS3.rtcp.len ≤ 1480 := by
  decide +kernel

theorem witness_SetExtMapMovesTheUri :
    fresh.ses.extMap.length = 14 ∧ mapped.ses.extMap.length = 14 := by
  decide +kernel

theorem witness_SesEncodeBuildsTheWirePacket :
    slotA.Inv ∧ sessionS6.Inv ∧ sessionW.Inv ∧
    (keyed.withPkt Pkt.reset).Inv ∧ scanS5.Inv :=
  ⟨by decide +kernel, by decide +kernel, by decide +kernel, by decide +kernel, by decide +kernel⟩

/-- Every malformed case of R289, a tail of three bytes too few, and one that leaves 12 bytes. -/
theorem witness_EktTailIsSplitFromItsEnd :
    keyed.ses.cipher ≠ 0x0000#16 ∧ keyed.ses.useEkt = true ∧
    (∀ wire ∈ [[], [0x01#8], [0x00#8, 0x02#8], [0x00#8], hex 5 0x0000000002],
      answers (.sesDecode wire) keyed [0x03#8] = true) ∧
    (∀ wire ∈ [zeros 12, zeros 11 ++ hex 5 0x1234000002],
      answers (.sesDecode wire) keyed [0x02#8] = true) ∧
    ektSplit (zeros 13) = .ok 1 ∧ ektSplit (zeros 12 ++ hex 9 0xaabbccdd1234000402) = .ok 9 := by
  decide +kernel

theorem witness_SesDecodeOpensTheWirePacket :
    sessionS6.Inv ∧ ektSplit (zeros 13) = .ok 1 ∧
    answers (.sesDecode (hex 36 0x8008002a000000210000002c520253e5c9581b3035417389cedb3889a5cba91b25e94500))
      sessionS6 = true := by
  decide +kernel

/-- With and without rewriting and EKT. -/
theorem witness_SessionRoundTrip :
    sessionS6.Inv ∧
    (∃ t, Machine.exec .sesEncode sessionS6 = .next t ∧
      t.responses = sessionS6.responses ++ [0x00#8 :: encodeOperands [.bytes
        (hex 36 0x8008002a000000210000002c520253e5c9581b3035417389cedb3889a5cba91b25e94500)]]) ∧
    sessionW.Inv ∧
    ∃ t, Machine.exec .sesEncode sessionW = .next t ∧
      t.responses = sessionW.responses ++ [0x00#8 :: encodeOperands [.bytes
        (hex 35 0x8008ffff000000210000002cae1ffc4e3f69922bbf157b3b1160833fec950374b6f3b1)]] :=
  ⟨by decide +kernel, completes (by decide +kernel), by decide +kernel, completes (by decide +kernel)⟩

theorem witness_SesEncRtcpAndRoundTrip :
    rtcpS6.Inv ∧ rtcpS6.rtcp.valid = true ∧ rtcpS6.ses.cipher = 7#16 ∧
    sessionS6.ses.rtcpKey = rtcpS6.ses.rtcpKey ∧ sessionS6.ses.rtcpSalt = rtcpS6.ses.rtcpSalt := by
  decide +kernel

theorem witness_SesDecRtcpOpensTheWirePacket :
    sessionS6.Inv ∧
    answers (.sesDecRtcp (hex 28 0x80c90001aabbccddff812749a20b542fdafb40a62b9a9a5180000001)) sessionS6
      = true ∧
    answers (.sesDecRtcp (zeros 8 ++ hex 4 0x80000000)) sessionS6 [0x05#8] = true := by
  decide +kernel

/-! ## Boundaries of the clauses of the other statements -/

/-- R130, R131: the payload and packet sizes that just fit and just do not. -/
theorem test_boundary_new_and_load :
    answers (.rtpNew 127#8 0#16 0#32 0#32 (zeros 1488)) fresh = true ∧
    answers (.rtpNew 127#8 0#16 0#32 0#32 (zeros 1489)) fresh [0x01#8] = true ∧
    answers (.rtpLoad (zeros 1500)) fresh = true ∧ answers (.rtpLoad (zeros 12)) fresh = true := by
  decide +kernel

/-- R162, R163, R164: the longest sections. -/
theorem test_boundary_sections :
    answers (.rtpSetCsrc (zeros 60)) bare = true ∧ answers (.rtpSetCsrc []) bare = true ∧
    answers (.rtpSetHdrExt 0xBEDE#16 (zeros 1484)) bare = true ∧
    answers (.rtpSetHdrExt 0xBEDE#16 (zeros 1488)) bare [0x01#8] = true ∧
    answers (.rtpSetHdrExt 0xBEDE#16 (zeros 3)) bare [0x02#8] = true ∧
    answers (.rtpSetPayload (zeros 1488)) bare = true ∧
    answers (.rtpSetPayload (zeros 1489)) bare [0x01#8] = true := by
  decide +kernel

/-- R166: pad counts 255 and 256, V77 and V78, and a length that is aligned. -/
theorem test_boundary_padding :
    answers (.rtpSetPadding 267#16) bare = true ∧ answers (.rtpSetPadding 268#16) bare [0x02#8] =
      true ∧
    answers (.rtpSetPadding 12#16) bare = true ∧
    answers (.rtpSetPadding 8#16) { bare with pkt := { bare.pkt with len := 1497 } } [0x01#8] =
      true ∧
    answers (.rtpSetPadding 4#16) { bare with pkt := { bare.pkt with len := 1497 } } = true := by
  decide +kernel

/-- R161, R165, R167, R168: V82, V83, V86, V88, V89. -/
theorem test_boundary_layout_checks :
    (let s := run fresh (hex 15 0x11000c820000000000000000000000)
     reply s [0x35#8] = [0x02#8] ∧ reply s [0x34#8] = hex 3 0) ∧
    reply (run fresh (hex 17 0x11000e900000000000000000000000bede)) [0x34#8] = [0x02#8] ∧
    (let s := run fresh (hex 23 0x110014900000000000000000000000bede0002b08c0000)
     reply s [0x34#8] = hex 3 0 ∧ reply s [0x36#8] = [0x02#8]) := by
  decide +kernel

/-- R182: ids 1, 14 and 15, one and seventeen data bytes. -/
theorem test_boundary_gen_ext :
    answers (.rtpSetGenExt 1#8 [0xAA#8]) bare = true ∧
    answers (.rtpSetGenExt 14#8 [0xAA#8]) bare = true ∧
    answers (.rtpSetGenExt 15#8 [0xAA#8]) bare [0x02#8] = true ∧
    answers (.rtpSetGenExt 1#8 (zeros 17)) bare [0x02#8] = true ∧
    reply (run bare (hex 9 0x31100000040b01aa00)) (hex 5 0x400b0001aa) = [0x06#8] := by
  decide +kernel

/-- R201, R203: V163, V170, the last length that fits, and V167. -/
theorem test_boundary_ohb :
    answers (.rtpSetOhb 127#8 42#16 false) originalO = true ∧
    answers (.rtpSetOhb 128#8 42#16 false) originalO [0x02#8] = true ∧
    answers (.rtpSetOhb 8#8 42#16 false) { originalO with pkt := { originalO.pkt with len := 1499 } }
      = true ∧
    answers (.rtpSetOhb 8#8 42#16 false) { originalO with pkt := { originalO.pkt with len := 1500 } }
      [0x01#8] = true ∧
    reply (run fresh (hex 17 0x11000e8008002a000000210000002c0203)) [0x49#8] = [0x02#8] := by
  decide +kernel

/-- R211, R212, R223, R224: V177, the shortest loads, V205 to V208. -/
theorem test_boundary_rtcp :
    answers (.rtcpLoad (zeros 8)) fresh = true ∧ answers (.rtcpLoad (zeros 1501)) fresh [0x01#8] =
      true ∧
    answers (.rtcpLoads (zeros 12)) fresh = true ∧
    answers (.rtcpLoads (zeros 1501)) fresh [0x01#8] = true ∧
    (let s := after (.rtcpLoad (zeros 1497)) fresh
     answers (.rtcpSetIndex 1#32) s [0x01#8] = true ∧ answers (.rtcpSetE false) s [0x01#8] = true) ∧
    answers (.rtcpSetIndex 0x7FFFFFFF#32) (after (.rtcpLoad (zeros 1496)) fresh) = true := by
  decide +kernel

/-- R260, R262, R263, R272, R273: key and salt sizes, V259, V258, V291, V279, V287. -/
theorem test_boundary_aead :
    answers (.rtpEncGcm 0#32 (zeros 24) (zeros 12)) slotA [0x02#8] = true ∧
    answers (.rtpEncGcm 0#32 (zeros 16) (zeros 11)) slotA [0x02#8] = true ∧
    answers (.rtpEncGcm 0#32 (zeros 32) (zeros 12)) { slotA with pkt := { slotA.pkt with len := 1485 } }
      [0x01#8] = true ∧
    answers (.rtpDecGcm 0#32 (zeros 16) (zeros 12)) { slotA with pkt := { slotA.pkt with len := 27 } }
      [0x05#8] = true ∧
    answers (.rtcpEncGcm (zeros 16) (zeros 12)) { plainS3 with rtcp := { plainS3.rtcp with len := 1481 } }
      [0x01#8] = true ∧
    answers (.rtcpDecGcm (zeros 16) (zeros 12)) plainS3 [0x02#8] = true ∧
    answers (.rtcpDecGcm (zeros 16) (zeros 12)) { sealedS3 with rtcp := { sealedS3.rtcp with len := 23 } }
      [0x05#8] = true := by
  decide +kernel

/-- R282: the longest URI and one byte more; R184: mapping the URI again moves it. -/
theorem test_boundary_ext_map :
    answers (.sesSetExtMap 14#8 (zeros 255)) fresh = true ∧
    answers (.sesSetExtMap 14#8 (zeros 256)) fresh [0x02#8] = true ∧
    (after (.sesSetExtMap 3#8 Config.audioLevelUri) mapped).ses.volId = some 3#8 ∧
    (after (.sesSetExtMap 3#8 Config.audioLevelUri) mapped).ses.extMap.getD 10 [0x00#8] = [] := by
  decide +kernel

/-- R287: one byte too many, with V352, V359 and V297. -/
theorem test_boundary_session :
    answers .sesEncode { sessionS6 with pkt := { sessionS6.pkt with len := 1481 } } [0x01#8] =
      true ∧
    answers .sesEncode { keyed with pkt := Pkt.reset } [0x07#8] = true ∧
    answers .sesEncRtcp sessionS6 [0x07#8] = true ∧ answers .sesEncRtcp slotA [0x04#8] = true ∧
    answers (.sesDecode (zeros 1501)) keyed [0x01#8] = true := by
  decide +kernel

end Sys2Proof.Tests
end

section
/-! SUPPORT. Which updates of a unit keep its registers legal, one rule per named update. -/

namespace Sys2Proof.Machine

/-! ## PKT -/

/-- The PKT slot holds a packet and its registers are legal (R24): what every `RTP.*` command that
edits the slot starts from and leaves. -/
def Pkt.Loaded (p : Pkt) : Prop := p.valid = true ∧ p.Inv

theorem Pkt.Loaded.inv {p : Pkt} (h : p.Loaded) : p.Inv := h.2

theorem Pkt.Loaded.len_bounds {p : Pkt} (h : p.Loaded) : 12 ≤ p.len ∧ p.len ≤ 1500 := by
  obtain ⟨hv, -, -, ⟨hmax, hmin⟩, -⟩ := h
  exact ⟨hmin hv, hmax⟩

theorem Pkt.Loaded.write {p : Pkt} (h : p.Loaded) {a : Nat} {bs : Bytes}
    (hb : a + bs.length ≤ 1500) : (p.write a bs).Loaded := by
  obtain ⟨hv, ⟨hwf, hin⟩, hekt, hlen, htag⟩ := h
  exact ⟨hv, ⟨Memory.wf_write hwf a bs, Memory.within_write hin a bs hb⟩, hekt, hlen, htag⟩

theorem Pkt.Loaded.setLen {p : Pkt} (h : p.Loaded) {n : Nat} (hmin : 12 ≤ n) (hmax : n ≤ 1500) :
    (p.setLen n).Loaded := by
  obtain ⟨hv, hbuf, hekt, -, htag⟩ := h
  exact ⟨hv, hbuf, hekt, ⟨hmax, fun _ => hmin⟩, htag⟩

theorem Pkt.Inv.load {p : Pkt} (h : p.Inv) {data : Bytes} (hmin : 12 ≤ data.length)
    (hmax : data.length ≤ 1500) : (p.load data).Loaded := by
  obtain ⟨⟨hwf, hin⟩, hekt, -, htag⟩ := h
  have hend : 0 + data.length ≤ 1500 := by omega
  exact ⟨rfl, ⟨Memory.wf_write hwf 0 data, Memory.within_write hin 0 data hend⟩, hekt,
    ⟨hmax, fun _ => hmin⟩, htag⟩

/-- R100: an EKT tail, as `ektShape` reads it back from the store. -/
def IsEktTail (tag : Bytes) : Prop :=
  tag = [0x00#8] ∨
    (5 ≤ tag.length ∧ tag.drop (tag.length - 1) = [0x02#8] ∧
      beNat ((tag.drop (tag.length - 3)).take 2) + 5 = tag.length)

/-- The length and the shape of a stored tail are those of the bytes stored. -/
theorem Pkt.setEkt_ektShape (p : Pkt) {tag : Bytes} (h : IsEktTail tag) :
    (p.setEkt tag).ektShape := by
  rcases h with rfl | ⟨hlen, hcmd, hfield⟩
  · exact .inl ⟨rfl, by simp [Memory.read_write]⟩
  · refine .inr ⟨hlen, ?_, ?_⟩
    · have := Memory.slice_write_part p.ekt 0 (tag.length - 1) 1 tag (by omega)
      rw [hcmd] at this
      simpa [Memory.slice] using this
    · have := Memory.slice_write_part p.ekt 0 (tag.length - 3) 2 tag (by omega)
      simpa [Memory.readBE, ← this] using hfield

theorem Pkt.Loaded.setEkt {p : Pkt} (h : p.Loaded) {tag : Bytes} (htag : IsEktTail tag)
    (hmax : tag.length ≤ 1500) : (p.setEkt tag).Loaded := by
  obtain ⟨hv, hbuf, ⟨hwf, hin⟩, hlen, -⟩ := h
  have hend : 0 + tag.length ≤ 1500 := by omega
  have hmin : 1 ≤ tag.length := by
    rcases htag with rfl | ⟨h5, -, -⟩
    · simp
    · omega
  exact ⟨hv, hbuf, ⟨Memory.wf_write hwf 0 tag, Memory.within_write hin 0 tag hend⟩, hlen, hmin,
    hmax, p.setEkt_ektShape htag⟩

/-! ## RTCP -/

/-- The RTCP slot holds a packet and its registers are legal (R28). -/
def Rtcp.Loaded (r : Rtcp) : Prop := r.valid = true ∧ r.Inv

theorem Rtcp.Loaded.inv {r : Rtcp} (h : r.Loaded) : r.Inv := h.2

theorem Rtcp.wireLen_le_iff (r : Rtcp) :
    r.wireLen ≤ Config.mtu ↔ r.len ≤ 1500 ∧ (r.esp = true → r.len ≤ 1496) := by
  cases h : r.esp
  · simp [Rtcp.wireLen, h, mtu_eq]
  · simp [Rtcp.wireLen, h, mtu_eq, esrtcpLen_eq]; omega

theorem Rtcp.Loaded.len_bounds {r : Rtcp} (h : r.Loaded) :
    8 ≤ r.len ∧ r.len ≤ 1500 ∧ (r.esp = true → r.len ≤ 1496) := by
  obtain ⟨hv, -, ⟨hmax, hmin⟩, -⟩ := h
  exact ⟨hmin hv, r.wireLen_le_iff.mp hmax⟩

theorem Rtcp.Loaded.write {r : Rtcp} (h : r.Loaded) {a : Nat} {bs : Bytes}
    (hb : a + bs.length ≤ 1500) : (r.write a bs).Loaded := by
  obtain ⟨hv, ⟨hwf, hin⟩, hlen, hesw⟩ := h
  exact ⟨hv, ⟨Memory.wf_write hwf a bs, Memory.within_write hin a bs hb⟩, hlen, hesw⟩

theorem Rtcp.Loaded.setLen {r : Rtcp} (h : r.Loaded) {n : Nat} (hmin : 8 ≤ n) (hmax : n ≤ 1496) :
    (r.setLen n).Loaded := by
  obtain ⟨hv, hbuf, -, hesw⟩ := h
  have hwire : (r.setLen n).wireLen ≤ Config.mtu := by
    rw [Rtcp.wireLen_le_iff, Rtcp.setLen_len]
    omega
  exact ⟨hv, hbuf, ⟨hwire, fun _ => hmin⟩, hesw⟩

/-- The ESRTCP word may be made present when there is room for its four bytes (C11). -/
theorem Rtcp.Loaded.setEsw {r : Rtcp} (h : r.Loaded) (w : BitVec 32) (hroom : r.len ≤ 1496) :
    (r.setEsw w).Loaded := by
  obtain ⟨hv, hbuf, ⟨-, hmin⟩, -⟩ := h
  have hwire : (r.setEsw w).wireLen ≤ Config.mtu := by
    rw [Rtcp.wireLen_le_iff, Rtcp.setEsw_len]
    omega
  exact ⟨hv, hbuf, ⟨hwire, hmin⟩, fun hesp => by simp at hesp⟩

end Sys2Proof.Machine
end

section
/-! SUPPORT. Each operation on a unit, when it succeeds, keeps the unit's registers legal. -/

namespace Sys2Proof.Machine

/-! ## PKT: creating, loading, the fixed header -/

theorem isEktTail_zero : IsEktTail [0x00#8] := .inl rfl

theorem Pkt.Inv.new {p q : Pkt} {pt : BitVec 8} {seq : BitVec 16} {ts ssrc : BitVec 32}
    {payload : Bytes} (h : p.Inv) (hq : p.new pt seq ts ssrc payload = .ok q) : q.Loaded := by
  unfold Pkt.new at hq
  rw [mtu_eq] at hq
  split_ifs at hq with hpt hlen
  cases hq
  refine (h.load ?_ ?_).setEkt isEktTail_zero (by simp)
  · simp; omega
  · simp; omega

theorem Pkt.Inv.loadWire {p q : Pkt} {data : Bytes} (h : p.Inv) (hq : p.loadWire data = .ok q) :
    q.Loaded := by
  unfold Pkt.loadWire at hq
  rw [mtu_eq] at hq
  split_ifs at hq with hmax hmin
  cases hq
  exact (h.load (by omega) (by omega)).setEkt isEktTail_zero (by simp)

theorem Pkt.Loaded.setOctet {p : Pkt} (h : p.Loaded) {a : Nat} (ha : a < 12) (b : Byte) :
    (p.write a [b]).Loaded :=
  h.write (by simp; omega)

theorem Pkt.Loaded.setField {p : Pkt} (h : p.Loaded) {a n : Nat} (ha : a + n ≤ 12) (v : Nat) :
    (p.write a (beBytes n v)).Loaded :=
  h.write (by simp; omega)

theorem Pkt.Loaded.setCc {p q : Pkt} {cc : BitVec 8} (h : p.Loaded) (hq : p.setCc cc = .ok q) :
    q.Loaded := by
  unfold Pkt.setCc at hq
  split_ifs at hq
  cases hq
  exact h.setOctet (by decide) _

theorem Pkt.Loaded.setPt {p q : Pkt} {pt : BitVec 8} (h : p.Loaded) (hq : p.setPt pt = .ok q) :
    q.Loaded := by
  unfold Pkt.setPt at hq
  split_ifs at hq
  cases hq
  exact h.setOctet (by decide) _

/-! ## PKT: sections -/

theorem Pkt.le_extOff (p : Pkt) : 12 ≤ p.extOff := by
  simp only [Pkt.extOff]; omega

theorem Pkt.extOff_le_payOff (p : Pkt) : p.extOff ≤ p.payOff := by
  unfold Pkt.payOff
  split <;> omega

/-- What R162, R163, R164 and R166 have in common: a write, then octet 0 and the new length. -/
theorem Pkt.Loaded.rewriteTail {p : Pkt} (h : p.Loaded) {a n : Nat} {bs : Bytes} {v : Byte}
    (hb : a + bs.length ≤ n) (hmin : 12 ≤ n) (hmax : n ≤ 1500) :
    (((p.write a bs).write 0 [v]).setLen n).Loaded :=
  ((h.write (by omega)).setOctet (by decide) v).setLen hmin hmax

theorem Pkt.Loaded.setCsrc {p q : Pkt} {list : Bytes} (h : p.Loaded)
    (hq : p.setCsrc list = .ok q) : q.Loaded := by
  unfold Pkt.setCsrc at hq
  rw [ccMax_eq, mtu_eq] at hq
  split_ifs at hq with hmod hcount hlen
  cases hq
  exact h.rewriteTail (by omega) (by omega) (by omega)

theorem Pkt.Loaded.setHdrExt {p q : Pkt} {profile : BitVec 16} {data : Bytes} (h : p.Loaded)
    (hq : p.setHdrExt profile data = .ok q) : q.Loaded := by
  unfold Pkt.setHdrExt at hq
  rw [mtu_eq] at hq
  have hext := p.le_extOff
  split_ifs at hq with hcsrc hmod hlen
  cases hq
  exact h.rewriteTail (by simp; omega) (by omega) (by omega)

theorem Pkt.Loaded.setPayload {p q : Pkt} {data : Bytes} (h : p.Loaded)
    (hq : p.setPayload data = .ok q) : q.Loaded := by
  unfold Pkt.setPayload at hq
  rw [mtu_eq] at hq
  have hext := p.le_extOff
  have hpay := p.extOff_le_payOff
  split_ifs at hq with hbad hlen
  cases hq
  exact h.rewriteTail (by omega) (by omega) (by omega)

theorem Pkt.Loaded.setPadding {p q : Pkt} {sizeMult : Nat} (h : p.Loaded)
    (hq : p.setPadding sizeMult = .ok q) : q.Loaded := by
  unfold Pkt.setPadding at hq
  rw [mtu_eq] at hq
  have hlen := h.len_bounds
  dsimp only at hq
  split_ifs at hq with hzero haligned hcount hmax
  · cases hq
    exact h
  · have hr : p.len % sizeMult < sizeMult := Nat.mod_lt _ (by omega)
    cases hq
    exact h.rewriteTail (by simp; omega) (by omega) (by omega)

/-! ## PKT: header extensions -/

theorem Pkt.Loaded.setGenExt {p q : Pkt} {id : BitVec 8} {data : Bytes} (h : p.Loaded)
    (hq : p.setGenExt id data = .ok q) : q.Loaded := by
  unfold Pkt.setGenExt at hq
  split_ifs at hq
  exact h.setHdrExt hq

theorem Pkt.Loaded.setVol {p q : Pkt} {volId : Option (BitVec 8)} {vad : Bool} {dbov : Int}
    (h : p.Loaded) (hq : p.setVol volId vad dbov = .ok q) : q.Loaded := by
  unfold Pkt.setVol at hq
  split_ifs at hq
  cases volId with
  | none => cases hq
  | some id => exact h.setGenExt hq

/-! ## PKT: original header block, AEAD -/

/-- R201: a successful `RTP.SETOHB` appends the block, which fits. -/
theorem Pkt.setOhb_ok {p q : Pkt} {pt : BitVec 8} {seq : BitVec 16} {m : Bool}
    (hq : p.setOhb pt seq m = .ok q) :
    p.len + (p.ohbBlock pt seq m).length ≤ 1500 ∧
      q = (p.write p.len (p.ohbBlock pt seq m)).setLen (p.len + (p.ohbBlock pt seq m).length) := by
  unfold Pkt.setOhb at hq
  rw [mtu_eq] at hq
  split_ifs at hq with hpt hlen
  cases hq
  exact ⟨by omega, rfl⟩

/-- R262: a successful seal replaces the bytes from `pay_off` on by 16 bytes more, which fit. -/
theorem Pkt.encGcm_ok {p q : Pkt} {roc : BitVec 32} {key salt : Bytes}
    (hq : p.encGcm roc key salt = .ok q) :
    p.payOff ≤ p.len ∧ p.len + 16 ≤ 1500 ∧
      ∃ sealed : Bytes, sealed.length = p.len - p.payOff + 16 ∧
        q = (p.write p.payOff sealed).setLen (p.len + 16) := by
  unfold Pkt.encGcm at hq
  rw [mtu_eq, tagLen_eq] at hq
  split_ifs at hq with hkey hbad hlen
  have hpay : ¬ p.len < p.payOff := fun hlt => hbad ((badPay_iff p).mpr (.inr hlt))
  cases hq
  exact ⟨by omega, by omega, _, by simp [Pkt.slice], rfl⟩

/-- R263: a successful open replaces the bytes from `pay_off` on by 16 bytes fewer. -/
theorem Pkt.decGcm_ok {p q : Pkt} {roc : BitVec 32} {key salt : Bytes}
    (hq : p.decGcm roc key salt = .ok q) :
    p.payOff + 16 ≤ p.len ∧
      ∃ plain : Bytes, plain.length = p.len - 16 - p.payOff ∧
        q = (p.write p.payOff plain).setLen (p.len - 16) := by
  unfold Pkt.decGcm at hq
  rw [tagLen_eq] at hq
  split_ifs at hq with hkey hbad hlen
  dsimp only at hq
  split at hq
  · cases hq
  · next plain hopen =>
    cases hq
    exact ⟨by omega, plain, by simpa [Pkt.slice] using length_gcmOpen hopen, rfl⟩

theorem Pkt.setOhb_lengths {p q : Pkt} {pt : BitVec 8} {seq : BitVec 16} {m : Bool}
    (hq : p.setOhb pt seq m = .ok q) :
    q.len = p.len + (p.ohbBlock pt seq m).length ∧ q.ektLen = p.ektLen := by
  obtain ⟨-, rfl⟩ := Pkt.setOhb_ok hq
  exact ⟨rfl, rfl⟩

theorem Pkt.encGcm_lengths {p q : Pkt} {roc : BitVec 32} {key salt : Bytes}
    (hq : p.encGcm roc key salt = .ok q) : q.len = p.len + 16 ∧ q.ektLen = p.ektLen := by
  obtain ⟨-, -, sealed, -, rfl⟩ := Pkt.encGcm_ok hq
  exact ⟨rfl, rfl⟩

theorem Pkt.Loaded.setOhb {p q : Pkt} {pt : BitVec 8} {seq : BitVec 16} {m : Bool} (h : p.Loaded)
    (hq : p.setOhb pt seq m = .ok q) : q.Loaded := by
  obtain ⟨hlen, rfl⟩ := Pkt.setOhb_ok hq
  have := h.len_bounds
  exact (h.write hlen).setLen (by omega) hlen

theorem Pkt.Loaded.encGcm {p q : Pkt} {roc : BitVec 32} {key salt : Bytes} (h : p.Loaded)
    (hq : p.encGcm roc key salt = .ok q) : q.Loaded := by
  obtain ⟨hpay, hlen, sealed, hsealed, rfl⟩ := Pkt.encGcm_ok hq
  have := h.len_bounds
  exact (h.write (by omega)).setLen (by omega) hlen

theorem Pkt.Loaded.decGcm {p q : Pkt} {roc : BitVec 32} {key salt : Bytes} (h : p.Loaded)
    (hq : p.decGcm roc key salt = .ok q) : q.Loaded := by
  obtain ⟨hpay, plain, hplain, rfl⟩ := Pkt.decGcm_ok hq
  have := h.len_bounds
  have := p.le_extOff
  have := p.extOff_le_payOff
  exact (h.write (by omega)).setLen (by omega) (by omega)

/-! ## PKT: the session's encode and decode -/

theorem Pkt.setSeq_seq (p : Pkt) (v : BitVec 16) : (p.setSeq v).seq = v := by
  have hread : Memory.slice (Memory.write p.buf 2 (beBytes 2 v.toNat)) 2 2 = beBytes 2 v.toNat :=
    Memory.slice_write_same _ _ _ _ (by simp)
  simp [Pkt.seq, Pkt.setSeq, Memory.readBE, hread, beNat_beBytes_of_lt (n := 2) v.isLt]

theorem Pkt.setSeq_pt (p : Pkt) (v : BitVec 16) : (p.setSeq v).pt = p.pt := by
  simp [Pkt.pt, Pkt.octet, Pkt.setSeq, Memory.read_write]

theorem Pkt.length_ohbBlock (p : Pkt) (pt : BitVec 8) (seq : BitVec 16) (m : Bool) :
    (p.ohbBlock pt seq m).length =
      (if pt != p.pt then 1 else 0) + (if seq != p.seq then 2 else 0) + 1 := by
  unfold Pkt.ohbBlock
  split <;> split <;> simp

/-- R287: the block that an encode appends has one byte, and two more when SEQ was rewritten. -/
theorem Pkt.length_ohbBlock_setSeq (p : Pkt) (v : BitVec 16) :
    ((p.setSeq v).ohbBlock p.pt p.seq p.m).length = if v != p.seq then 3 else 1 := by
  rw [Pkt.length_ohbBlock, Pkt.setSeq_pt, Pkt.setSeq_seq]
  by_cases hv : v = p.seq
  · simp [hv]
  · simp [hv, Ne.symm hv]

/-- R287 steps 3 to 7: the size check made before them covers the wire packet. -/
theorem Pkt.Loaded.encodePkt {p w : Pkt} {e : Ses} (h : p.Loaded)
    (hfits : e.encodedLength p ≤ 1500) (hw : e.encodePkt p = .ok w) : w.Loaded := by
  unfold Ses.encodePkt at hw
  split at hw
  · cases hw
  next q hohb =>
  split at hw
  · cases hw
  next sealedPkt hseal =>
  have hloaded : sealedPkt.Loaded := ((h.setField (by decide) _).setOhb hohb).encGcm hseal
  split at hw
  case isFalse => cases hw; exact hloaded
  case isTrue hekt =>
  have hlen : sealedPkt.len + sealedPkt.ektLen = e.encodedLength p := by
    have ⟨hsealLen, hsealEkt⟩ := Pkt.encGcm_lengths hseal
    have ⟨hohbLen, hohbEkt⟩ := Pkt.setOhb_lengths hohb
    rw [hsealLen, hsealEkt, hohbLen, hohbEkt, Pkt.length_ohbBlock_setSeq, Ses.encodedLength,
      if_pos hekt, tagLen_eq]
    rfl
  have := hloaded.len_bounds
  cases hw
  exact (hloaded.write (by simp [Pkt.ektTag]; omega)).setLen (by omega) (by omega)

/-- R203: a block that is found lies between the header and the end of the packet. -/
theorem Pkt.getOhb_ok {p : Pkt} {r : BitVec 8 × BitVec 16 × Bool} (hr : p.getOhb = .ok r) :
    p.payOff + ohbLength p.ohbLast ≤ p.len := by
  unfold Pkt.getOhb at hr
  split_ifs at hr with hbad hshort
  have hpay : ¬ p.len < p.payOff := fun hlt => hbad ((badPay_iff p).mpr (.inr hlt))
  omega

theorem Pkt.Loaded.restore {p : Pkt} {r : BitVec 8 × BitVec 16 × Bool} (h : p.Loaded)
    (hr : p.getOhb = .ok r) (pt : BitVec 8) (seq : BitVec 16) (m : Bool) :
    (p.restore pt seq m).Loaded := by
  have := h.len_bounds
  have := p.le_extOff
  have := p.extOff_le_payOff
  have := Pkt.getOhb_ok hr
  exact ((h.setOctet (by decide) _).setField (by decide) _).setLen (by omega) (by omega)

theorem Pkt.Inv.decodePkt {p q : Pkt} {e : Ses} {packet : Bytes} (h : p.Inv)
    (hmin : 12 ≤ packet.length) (hmax : packet.length ≤ 1500)
    (hq : e.decodePkt p packet = .ok q) : q.Loaded := by
  unfold Ses.decodePkt at hq
  split at hq
  · cases hq
  next opened hopen =>
  split at hq
  · cases hq
  next pt seq m hohb =>
  cases hq
  exact ((h.load hmin hmax).decGcm hopen).restore hohb pt seq m

theorem drop_length_sub_one {bs : Bytes} (h : 1 ≤ bs.length) :
    bs.drop (bs.length - 1) = [bs.getD (bs.length - 1) 0x00#8] := by
  rw [List.drop_eq_getElem_cons (by omega), List.getD_eq_getElem _ _ (by omega),
    List.drop_eq_nil_of_le (by omega)]

/-- The last `k` bytes of a longer tail of a string are its own last `k` bytes. -/
theorem drop_length_sub_of_tail {bs : Bytes} {k n : Nat} (hk : k ≤ n) (hn : n ≤ bs.length) :
    (bs.drop (bs.length - n)).drop ((bs.drop (bs.length - n)).length - k) =
      bs.drop (bs.length - k) := by
  rw [List.drop_drop, List.length_drop]
  congr 1
  omega

/-- R289, R100: what `EKT_SPLIT` cuts off the end is an EKT tail, and leaves at least one byte. -/
theorem ektSplit_ok {wire : Bytes} {total : Nat} (h : ektSplit wire = .ok total) :
    total < wire.length ∧ IsEktTail (wire.drop (wire.length - total)) := by
  unfold ektSplit at h
  dsimp only at h
  split_ifs at h with hempty hshort hbound hlong hshort3 hbound3
  · cases h
    exact ⟨by omega, .inl (by rw [drop_length_sub_one (by omega), hshort])⟩
  · cases h
    refine ⟨by omega, .inr ⟨?_, ?_, ?_⟩⟩
    · rw [List.length_drop]; omega
    · rw [drop_length_sub_of_tail (by omega) (by omega), drop_length_sub_one (by omega), hlong]
    · rw [drop_length_sub_of_tail (by omega) (by omega), List.length_drop]; omega

/-- R290: `SES.DECODE` leaves a loaded slot with the received tail pending. -/
theorem Pkt.Inv.decode {p q : Pkt} {e : Ses} {wire : Bytes} {total : Nat} (h : p.Inv)
    (hmax : wire.length ≤ 1500)
    (hsplit : (if e.useEkt then ektSplit wire else .ok 0) = .ok total)
    (hmin : 12 ≤ wire.length - total)
    (hq : e.decodePkt p (wire.take (wire.length - total)) = .ok q) :
    (q.setEkt (if e.useEkt then wire.drop (wire.length - total) else [0x00#8])).Loaded := by
  have hq : q.Loaded := h.decodePkt (by simp; omega) (by simp; omega) hq
  by_cases hekt : e.useEkt = true
  · rw [if_pos hekt] at hsplit ⊢
    exact hq.setEkt (ektSplit_ok hsplit).2 (by simp; omega)
  · rw [if_neg hekt]
    exact hq.setEkt isEktTail_zero (by simp)

/-! ## RTCP -/

theorem Rtcp.Inv.load {r q : Rtcp} {data : Bytes} (h : r.Inv) (hq : r.load data = .ok q) :
    q.Loaded := by
  obtain ⟨⟨hwf, hin⟩, -, -⟩ := h
  unfold Rtcp.load at hq
  rw [mtu_eq, rtcpHdr_eq] at hq
  split_ifs at hq with hmax hmin
  cases hq
  have hend : 0 + data.length ≤ 1500 := by omega
  refine ⟨rfl, ⟨Memory.wf_write hwf 0 data, Memory.within_write hin 0 data hend⟩,
    ⟨?_, fun _ => by dsimp only; omega⟩, fun _ => rfl⟩
  rw [Rtcp.wireLen_le_iff]
  exact ⟨by dsimp only; omega, nofun⟩

theorem Rtcp.Inv.loads {r q : Rtcp} {data : Bytes} (h : r.Inv) (hq : r.loads data = .ok q) :
    q.Loaded := by
  obtain ⟨⟨hwf, hin⟩, -, -⟩ := h
  unfold Rtcp.loads at hq
  rw [mtu_eq, rtcpHdr_eq, esrtcpLen_eq] at hq
  split_ifs at hq with hmax hmin
  cases hq
  refine ⟨rfl, ⟨Memory.wf_write hwf _ _, Memory.within_write hin _ _ ?_⟩,
    ⟨?_, fun _ => by dsimp only; omega⟩, nofun⟩
  · rw [mtu_eq, List.length_take]
    omega
  · rw [Rtcp.wireLen_le_iff]
    dsimp only
    omega

theorem Rtcp.Loaded.setField {r : Rtcp} (h : r.Loaded) {a n : Nat} (ha : a + n ≤ 8) (v : Nat) :
    (r.write a (beBytes n v)).Loaded :=
  h.write (by simp; omega)

/-- C11: without `noRoomForEsw` the slot has room for the ESRTCP word, present or not. -/
theorem Rtcp.Loaded.len_le_of_room {r : Rtcp} (h : r.Loaded) (hroom : ¬ r.noRoomForEsw = true) :
    r.len ≤ 1496 := by
  obtain ⟨-, -, hesp⟩ := h.len_bounds
  cases hp : r.esp with
  | true => exact hesp hp
  | false =>
    simp [Rtcp.noRoomForEsw, hp, mtu_eq, esrtcpLen_eq] at hroom
    omega

theorem Rtcp.Loaded.setIndex {r q : Rtcp} {index : BitVec 32} (h : r.Loaded)
    (hq : r.setIndex index = .ok q) : q.Loaded := by
  unfold Rtcp.setIndex at hq
  split_ifs at hq with hrange hroom
  cases hq
  exact h.setEsw _ (h.len_le_of_room hroom)

theorem Rtcp.Loaded.setE {r q : Rtcp} {e : Bool} (h : r.Loaded) (hq : r.setE e = .ok q) :
    q.Loaded := by
  unfold Rtcp.setE at hq
  by_cases hroom : r.noRoomForEsw = true
  · rw [if_pos hroom] at hq
    cases hq
  · rw [if_neg hroom] at hq
    cases hq
    exact h.setEsw _ (h.len_le_of_room hroom)

theorem Rtcp.Loaded.encGcm {r q : Rtcp} {key salt : Bytes} (h : r.Loaded)
    (hq : r.encGcm key salt = .ok q) : q.Loaded := by
  unfold Rtcp.encGcm at hq
  rw [mtu_eq, tagLen_eq, esrtcpLen_eq] at hq
  split_ifs at hq with hkey hlen
  have := h.len_bounds
  cases hq
  refine ((h.write ?_).setLen (by omega) (by omega)).setEsw _ ?_
  · simp [Rtcp.slice]; omega
  · rw [Rtcp.setLen_len]; omega

theorem Rtcp.Loaded.decGcm {r q : Rtcp} {key salt : Bytes} (h : r.Loaded)
    (hq : r.decGcm key salt = .ok q) : q.Loaded := by
  unfold Rtcp.decGcm at hq
  rw [tagLen_eq] at hq
  split_ifs at hq with hkey hword hlen
  dsimp only at hq
  split at hq
  · cases hq
  next plain hopen =>
  have hplain := length_gcmOpen hopen
  rw [Rtcp.slice, Memory.length_slice] at hplain
  have := h.len_bounds
  cases hq
  exact (h.write (by omega)).setLen (by omega) (by omega)

/-! ## KDF -/

/-- R241: an installed master key is legal, whatever stood in the registers before. -/
theorem Kdf.Inv.init {k q : Kdf} {key salt : Bytes} (h : k.Inv) (hq : k.init key salt = .ok q) :
    q.Inv := by
  obtain ⟨⟨hkey, -⟩, -⟩ := h
  unfold Kdf.init at hq
  rw [msaltLen_eq] at hq
  split_ifs at hq with hbad hsalt
  have hlen : key.length = 16 ∨ key.length = 32 := by
    rw [badKeyLength_iff] at hbad
    omega
  cases hq
  refine ⟨⟨?_, ?_⟩, fun _ => hlen⟩
  · rw [length_overwrite (by omega), hkey]
  · simp; omega

/-- R245: the ciphers that have session keys, and the lengths of what is derived for them. -/
theorem Kdf.deriveStream_ok {k : Kdf} {cipher : BitVec 16} {d : StreamKeys}
    (hd : k.deriveStream cipher = .ok d) :
    (cipher = 0x0007#16 ∧ d.rtpKey.length = 16 ∨ cipher = 0x0008#16 ∧ d.rtpKey.length = 32) ∧
      d.rtcpKey.length = d.rtpKey.length ∧ d.rtpSalt.length = 12 ∧ d.rtcpSalt.length = 12 := by
  unfold Kdf.deriveStream at hd
  split at hd
  · cases hd
  split at hd
  · cases hd
  next klen hklen =>
  unfold cipherKeyLength at hklen
  cases hd
  simp only [length_prf, saltLen_eq, and_true]
  split_ifs at hklen with h7 h8
  · cases hklen
    exact .inl ⟨h7, rfl⟩
  · cases hklen
    exact .inr ⟨h8, rfl⟩

/-! ## SES -/

theorem Ses.Inv.install {e : Ses} {k : Kdf} {cipher : BitVec 16} {d : StreamKeys} (h : e.Inv)
    (useEkt : Bool) (hd : k.deriveStream cipher = .ok d) : (e.install cipher useEkt d).Inv := by
  obtain ⟨⟨hrtpKey, hrtcpKey, -, -⟩, -, -, hmap⟩ := h
  obtain ⟨hcipher, hsame, hrtpSalt, hrtcpSalt⟩ := Kdf.deriveStream_ok hd
  refine ⟨⟨?_, ?_, hrtpSalt, hrtcpSalt⟩, nofun, fun _ => hcipher, hmap⟩
  · exact (length_overwrite (by omega)).trans hrtpKey
  · exact (length_overwrite (by omega)).trans hrtcpKey

/-- R282: emptying the other slots that hold the URI keeps one slot per name. -/
theorem Ses.Inv.mapUri {e : Ses} {id : Nat} {uri : Bytes} (h : e.Inv) (huri : uri.length ≤ 255) :
    (e.mapUri id uri).Inv := by
  obtain ⟨hwidths, hfresh, hkeyed, hlen, hmax, hdistinct⟩ := h
  refine ⟨hwidths, hfresh, hkeyed, by simpa [Ses.mapUri] using hlen, ?_, ?_⟩
  · intro u hu
    rcases List.mem_or_eq_of_mem_set hu with hu | rfl
    · obtain ⟨v, hv, rfl⟩ := List.mem_map.mp hu
      split
      · simp
      · exact hmax v hv
    · exact huri
  · rw [List.pairwise_iff_getElem] at hdistinct ⊢
    intro i j hi hj hij
    simp only [Ses.mapUri, List.length_set, List.length_map] at hi hj
    have hold := hdistinct i j hi hj hij
    simp only [Ses.mapUri, List.getElem_set, List.getElem_map]
    by_cases hidi : id - 1 = i
    · -- the new slot and a later one, which no longer holds the URI
      rw [if_pos hidi, if_neg (by omega)]
      grind
    · by_cases hidj : id - 1 = j
      · -- an earlier slot, which no longer holds the URI, and the new one
        rw [if_neg hidi, if_pos hidj]
        grind
      · -- two other slots: each is empty or as before
        rw [if_neg hidi, if_neg hidj]
        grind

end Sys2Proof.Machine
end

section
/-! SUPPORT. What a command can do, said once: how each command ends (`exec_ends`) and what a step does
with each input (`step_cases`). -/

namespace Sys2Proof.Machine

/-! ## The edits of a loaded slot (R149, R225) -/

/-- The commands that edit a loaded PKT unit, each with its edit; `e` is the session, whose extension
map `RTP.SETVOL` reads. -/
inductive RtpEdit (e : Ses) : Instr → (Pkt → Except Status Pkt) → Prop
  | setP (b : Bool) : RtpEdit e (.rtpSetP b) fun p => .ok (p.setP b)
  | setX (b : Bool) : RtpEdit e (.rtpSetX b) fun p => .ok (p.setX b)
  | setCc (cc : BitVec 8) : RtpEdit e (.rtpSetCc cc) fun p => p.setCc cc
  | setM (b : Bool) : RtpEdit e (.rtpSetM b) fun p => .ok (p.setM b)
  | setPt (pt : BitVec 8) : RtpEdit e (.rtpSetPt pt) fun p => p.setPt pt
  | setSeq (seq : BitVec 16) : RtpEdit e (.rtpSetSeq seq) fun p => .ok (p.setSeq seq)
  | setTs (ts : BitVec 32) : RtpEdit e (.rtpSetTs ts) fun p => .ok (p.setTs ts)
  | setSsrc (ssrc : BitVec 32) : RtpEdit e (.rtpSetSsrc ssrc) fun p => .ok (p.setSsrc ssrc)
  | setCsrc (list : Bytes) : RtpEdit e (.rtpSetCsrc list) fun p => p.setCsrc list
  | setHdrExt (profile : BitVec 16) (data : Bytes) :
    RtpEdit e (.rtpSetHdrExt profile data) fun p => p.setHdrExt profile data
  | setPayload (data : Bytes) : RtpEdit e (.rtpSetPayload data) fun p => p.setPayload data
  | setPadding (sizeMult : BitVec 16) :
    RtpEdit e (.rtpSetPadding sizeMult) fun p => p.setPadding sizeMult.toNat
  | setGenExt (id : BitVec 8) (data : Bytes) :
    RtpEdit e (.rtpSetGenExt id data) fun p => p.setGenExt id data
  | setVol (vad : Bool) (dbov : Int) :
    RtpEdit e (.rtpSetVol vad dbov) fun p => p.setVol e.volId vad dbov
  | setOhb (pt : BitVec 8) (seq : BitVec 16) (m : Bool) :
    RtpEdit e (.rtpSetOhb pt seq m) fun p => p.setOhb pt seq m
  | encGcm (roc : BitVec 32) (key salt : Bytes) :
    RtpEdit e (.rtpEncGcm roc key salt) fun p => p.encGcm roc key salt
  | decGcm (roc : BitVec 32) (key salt : Bytes) :
    RtpEdit e (.rtpDecGcm roc key salt) fun p => p.decGcm roc key salt

/-- The commands that edit a loaded RTCP unit, each with its edit. -/
inductive RtcpEdit : Instr → (Rtcp → Except Status Rtcp) → Prop
  | setPt (pt : BitVec 8) : RtcpEdit (.rtcpSetPt pt) fun r => .ok (r.write 1 [pt])
  | setLenW (words : BitVec 16) :
    RtcpEdit (.rtcpSetLenW words) fun r => .ok (r.write 2 (beBytes 2 words.toNat))
  | setSsrc (ssrc : BitVec 32) :
    RtcpEdit (.rtcpSetSsrc ssrc) fun r => .ok (r.write 4 (beBytes 4 ssrc.toNat))
  | setIndex (index : BitVec 32) : RtcpEdit (.rtcpSetIndex index) fun r => r.setIndex index
  | setE (e : Bool) : RtcpEdit (.rtcpSetE e) fun r => r.setE e
  | encGcm (key salt : Bytes) : RtcpEdit (.rtcpEncGcm key salt) fun r => r.encGcm key salt
  | decGcm (key salt : Bytes) : RtcpEdit (.rtcpDecGcm key salt) fun r => r.decGcm key salt

/-! ## Every command -/

/-- What a command that answers `OK` can do in `s`: the state it leaves, before its response, and its
results. -/
inductive Effect (s : State) : Instr → State → List Operand → Prop
  | read {i : Instr} {results : List Operand} (hi : readsOnly i = true) : Effect s i s results
  | rtpNew {pt : BitVec 8} {seq : BitVec 16} {ts ssrc : BitVec 32} {payload : Bytes} {p : Pkt}
      (hp : s.pkt.new pt seq ts ssrc payload = .ok p) :
      Effect s (.rtpNew pt seq ts ssrc payload) (s.withPkt p) []
  | rtpLoad {data : Bytes} {p : Pkt} (hp : s.pkt.loadWire data = .ok p) :
      Effect s (.rtpLoad data) (s.withPkt p) []
  | rtpEdit {i : Instr} {f : Pkt → Except Status Pkt} {p : Pkt} (hf : RtpEdit s.ses i f)
      (hv : s.pkt.valid = true) (hp : f s.pkt = .ok p) : Effect s i (s.withPkt p) []
  | rtcpLoad {data : Bytes} {r : Rtcp} (hr : s.rtcp.load data = .ok r) :
      Effect s (.rtcpLoad data) (s.withRtcp r) []
  | rtcpLoads {data : Bytes} {r : Rtcp} (hr : s.rtcp.loads data = .ok r) :
      Effect s (.rtcpLoads data) (s.withRtcp r) []
  | rtcpEdit {i : Instr} {f : Rtcp → Except Status Rtcp} {r : Rtcp} (hf : RtcpEdit i f)
      (hv : s.rtcp.valid = true) (hr : f s.rtcp = .ok r) : Effect s i (s.withRtcp r) []
  | kdfInit {key salt : Bytes} {k : Kdf} (hk : s.kdf.init key salt = .ok k) :
      Effect s (.kdfInit key salt) (s.withKdf k) []
  | setSrtp {cipher : BitVec 16} {useEkt : Bool} {key salt : Bytes} {k : Kdf} {d : StreamKeys}
      (hs : s.ses.state ≠ .keyed) (hk : s.kdf.init key salt = .ok k)
      (hd : k.deriveStream cipher = .ok d) :
      Effect s (.sesSetSrtp cipher useEkt key salt)
        ((s.withKdf k).withSes (s.ses.install cipher useEkt d)) []
  | setExtMap {id : BitVec 8} {uri : Bytes} (hid : 1 ≤ id.toNat ∧ id.toNat ≤ 14)
      (huri : 1 ≤ uri.length ∧ uri.length ≤ 255) :
      Effect s (.sesSetExtMap id uri) (s.withSes (s.ses.mapUri id.toNat uri)) []
  | setRewrite {on : Bool} :
      Effect s (.sesSetRewrite on) (s.withSes { s.ses with rewrite := on }) []
  | setSeq {seq : BitVec 16} : Effect s (.sesSetSeq seq) (s.withSes (s.ses.setSeq seq)) []
  | encode {w : Pkt} (hc : s.ses.cipher ≠ 0x0000#16) (hv : s.pkt.valid = true)
      (hpay : s.pkt.badPay = false) (hfits : s.ses.encodedLength s.pkt ≤ 1500)
      (hw : s.ses.encodePkt s.pkt = .ok w) :
      Effect s .sesEncode
        ((s.withPkt w).withSes (if s.ses.rewrite then s.ses.advance else s.ses)) [.bytes w.bytes]
  | decode {wire : Bytes} {total : Nat} {q : Pkt} (hc : s.ses.cipher ≠ 0x0000#16)
      (hmax : wire.length ≤ 1500)
      (hsplit : (if s.ses.useEkt then ektSplit wire else .ok 0) = .ok total)
      (hmin : 12 ≤ wire.length - total)
      (hq : s.ses.decodePkt s.pkt (wire.take (wire.length - total)) = .ok q) :
      Effect s (.sesDecode wire)
        (s.withPkt (q.setEkt
          (if s.ses.useEkt then wire.drop (wire.length - total) else [0x00#8]))) []
  | encRtcp {r : Rtcp} (hc : s.ses.cipher ≠ 0x0000#16) (hv : s.rtcp.valid = true)
      (hr : s.rtcp.encGcm s.ses.liveRtcpKey s.ses.rtcpSalt = .ok r) :
      Effect s .sesEncRtcp (s.withRtcp r) [.bytes r.wire]
  | decRtcp {wire : Bytes} {loaded r : Rtcp} (hc : s.ses.cipher ≠ 0x0000#16)
      (hl : s.rtcp.loads wire = .ok loaded)
      (hr : loaded.decGcm s.ses.liveRtcpKey s.ses.rtcpSalt = .ok r) :
      Effect s (.sesDecRtcp wire) (s.withRtcp r) []

/-- How command `i` ends in `s` when its outcome is `o`: with a status and nothing else, or with `OK`
after an effect (R106, R343). -/
def Ends (s : State) (i : Instr) (o : Host.Outcome State Fault Refusal) : Prop :=
  (∃ k : Status, o = .next (s.respond [k.code])) ∨
    ∃ u results, Effect s i u results ∧ o = .next (u.respond (0x00#8 :: encodeOperands results))

theorem ends_perform {s : State} {i : Instr} {r : Result}
    (h : ∀ u results, r = .ok (u, results) → Effect s i u results) : Ends s i (perform s r) := by
  rcases r with k | ⟨u, results⟩
  · exact .inl ⟨k, rfl⟩
  · exact .inr ⟨u, results, h u results rfl, rfl⟩

/-- A rule that computes a value and then says what it writes and answers. -/
theorem ends_map {α : Type} {s : State} {i : Instr} {x : Except Status α}
    {g : α → State × List Operand} (h : ∀ a, x = .ok a → Effect s i (g a).1 (g a).2) :
    Ends s i (perform s (x.map g)) := by
  cases x with
  | error k => exact .inl ⟨k, rfl⟩
  | ok a => exact .inr ⟨(g a).1, (g a).2, h a rfl, rfl⟩

theorem ends_readPkt {s : State} {i : Instr} (hi : readsOnly i = true)
    (f : Pkt → Except Status (List Operand)) : Ends s i (perform s (s.readPkt f)) := by
  cases hv : s.pkt.valid with
  | false => rw [State.readPkt_empty hv]; exact .inl ⟨_, rfl⟩
  | true => rw [State.readPkt_loaded hv]; exact ends_map fun _ _ => .read hi

theorem ends_editPkt {s : State} {i : Instr} {f : Pkt → Except Status Pkt}
    (hf : RtpEdit s.ses i f) : Ends s i (perform s (s.editPkt f)) := by
  cases hv : s.pkt.valid with
  | false => rw [State.editPkt_empty hv]; exact .inl ⟨_, rfl⟩
  | true => rw [State.editPkt_loaded hv]; exact ends_map fun _ hp => .rtpEdit hf hv hp

theorem ends_readRtcp {s : State} {i : Instr} (hi : readsOnly i = true)
    (f : Rtcp → Except Status (List Operand)) : Ends s i (perform s (s.readRtcp f)) := by
  cases hv : s.rtcp.valid with
  | false => rw [State.readRtcp_empty hv]; exact .inl ⟨_, rfl⟩
  | true => rw [State.readRtcp_loaded hv]; exact ends_map fun _ _ => .read hi

theorem ends_editRtcp {s : State} {i : Instr} {f : Rtcp → Except Status Rtcp}
    (hf : RtcpEdit i f) : Ends s i (perform s (s.editRtcp f)) := by
  cases hv : s.rtcp.valid with
  | false => rw [State.editRtcp_empty hv]; exact .inl ⟨_, rfl⟩
  | true => rw [State.editRtcp_loaded hv]; exact ends_map fun _ hr => .rtcpEdit hf hv hr

theorem ends_setSrtp (s : State) (cipher : BitVec 16) (useEkt : Bool) (key salt : Bytes) :
    Ends s (.sesSetSrtp cipher useEkt key salt) (execSesSetSrtp cipher useEkt key salt s) := by
  refine ends_perform fun u results h => ?_
  unfold State.setSrtp at h
  split_ifs at h with hs
  split at h
  · cases h
  next k hk =>
  split at h
  · cases h
  next d hd =>
  cases h
  exact .setSrtp hs hk hd

theorem ends_setExtMap (s : State) (id : BitVec 8) (uri : Bytes) :
    Ends s (.sesSetExtMap id uri) (execSesSetExtMap id uri s) := by
  refine ends_perform fun u results h => ?_
  rw [uriMax_eq] at h
  split_ifs at h with hid huri
  rw [badExtId_iff] at hid
  cases h
  exact .setExtMap (by omega) (by omega)

theorem ends_encode (s : State) : Ends s .sesEncode (execSesEncode s) := by
  refine ends_perform fun u results h => ?_
  unfold State.encode at h
  rw [mtu_eq] at h
  split at h
  · cases h
  next hc =>
  split at h
  · cases h
  next hv =>
  split at h
  · cases h
  next hpay =>
  split at h
  · cases h
  next hfits =>
  split at h
  · cases h
  next w hw =>
  cases h
  exact .encode hc (by simpa using hv) (by simpa using hpay) (by omega) hw

theorem ends_decode (s : State) (wire : Bytes) :
    Ends s (.sesDecode wire) (execSesDecode wire s) := by
  refine ends_perform fun u results h => ?_
  unfold State.decode at h
  rw [mtu_eq] at h
  split at h
  · cases h
  next hc =>
  split at h
  · cases h
  next hmax =>
  split at h
  · cases h
  next total hsplit =>
  dsimp only at h
  split at h
  · cases h
  next hmin =>
  split at h
  · cases h
  next q hq =>
  cases h
  exact .decode hc (by omega) hsplit (by omega) hq

theorem ends_encRtcp (s : State) : Ends s .sesEncRtcp (execSesEncRtcp s) := by
  refine ends_perform fun u results h => ?_
  unfold State.encRtcp at h
  split_ifs at h with hc hv
  split at h
  · cases h
  next r hr =>
  cases h
  exact .encRtcp hc (by simpa using hv) hr

theorem ends_decRtcp (s : State) (wire : Bytes) :
    Ends s (.sesDecRtcp wire) (execSesDecRtcp wire s) := by
  refine ends_perform fun u results h => ?_
  unfold State.decRtcp at h
  split_ifs at h with hc
  split at h
  · cases h
  next loaded hl =>
  split at h
  · cases h
  next r hr =>
  cases h
  exact .decRtcp hc hl hr

/-- Every command in every state ends, with a status that changes nothing or with its effect. -/
theorem exec_ends (i : Instr) (s : State) : Ends s i (exec i s) := by
  cases i with
  | rtpStore | rtpGetP | rtpGetX | rtpGetCc | rtpGetM | rtpGetPt | rtpGetSeq | rtpGetTs
  | rtpGetSsrc | rtpGetPayload | rtpGetCsrc | rtpGetHdrExt | rtpGetGenExt | rtpGetVol
  | rtpGetOhb | rtpGetOhbLen => exact ends_readPkt rfl _
  | rtcpStore | rtcpGetPt | rtcpGetLenW | rtcpGetLenB | rtcpGetSsrc | rtcpGetIndex
  | rtcpGetE => exact ends_readRtcp rfl _
  | kdfDerive | kdfDeriveStream => exact ends_map fun _ _ => .read rfl
  | sesGetSeq | sesGetRoc => exact .inr ⟨s, _, .read rfl, rfl⟩
  | rtpNew => exact ends_map fun _ hp => .rtpNew hp
  | rtpLoad => exact ends_map fun _ hp => .rtpLoad hp
  | rtpSetP b => exact ends_editPkt (.setP b)
  | rtpSetX b => exact ends_editPkt (.setX b)
  | rtpSetCc cc => exact ends_editPkt (.setCc cc)
  | rtpSetM b => exact ends_editPkt (.setM b)
  | rtpSetPt pt => exact ends_editPkt (.setPt pt)
  | rtpSetSeq seq => exact ends_editPkt (.setSeq seq)
  | rtpSetTs ts => exact ends_editPkt (.setTs ts)
  | rtpSetSsrc ssrc => exact ends_editPkt (.setSsrc ssrc)
  | rtpSetCsrc list => exact ends_editPkt (.setCsrc list)
  | rtpSetHdrExt profile data => exact ends_editPkt (.setHdrExt profile data)
  | rtpSetPayload data => exact ends_editPkt (.setPayload data)
  | rtpSetPadding sizeMult => exact ends_editPkt (.setPadding sizeMult)
  | rtpSetGenExt id data => exact ends_editPkt (.setGenExt id data)
  | rtpSetVol vad dbov => exact ends_editPkt (.setVol vad dbov)
  | rtpSetOhb pt seq m => exact ends_editPkt (.setOhb pt seq m)
  | rtpEncGcm roc key salt => exact ends_editPkt (.encGcm roc key salt)
  | rtpDecGcm roc key salt => exact ends_editPkt (.decGcm roc key salt)
  | rtcpLoad => exact ends_map fun _ hr => .rtcpLoad hr
  | rtcpLoads => exact ends_map fun _ hr => .rtcpLoads hr
  | rtcpSetPt pt => exact ends_editRtcp (.setPt pt)
  | rtcpSetLenW words => exact ends_editRtcp (.setLenW words)
  | rtcpSetSsrc ssrc => exact ends_editRtcp (.setSsrc ssrc)
  | rtcpSetIndex index => exact ends_editRtcp (.setIndex index)
  | rtcpSetE e => exact ends_editRtcp (.setE e)
  | rtcpEncGcm key salt => exact ends_editRtcp (.encGcm key salt)
  | rtcpDecGcm key salt => exact ends_editRtcp (.decGcm key salt)
  | kdfInit => exact ends_map fun _ hk => .kdfInit hk
  | sesSetSrtp cipher useEkt key salt => exact ends_setSrtp s cipher useEkt key salt
  | sesSetExtMap id uri => exact ends_setExtMap s id uri
  | sesSetRewrite => exact .inr ⟨_, [], .setRewrite, rfl⟩
  | sesSetSeq => exact .inr ⟨_, [], .setSeq, rfl⟩
  | sesEncode => exact ends_encode s
  | sesDecode wire => exact ends_decode s wire
  | sesEncRtcp => exact ends_encRtcp s
  | sesDecRtcp wire => exact ends_decRtcp s wire

/-- `exec_ends`, read from the next state. -/
theorem exec_cases {i : Instr} {s t : State} (h : exec i s = .next t) :
    (∃ k : Status, t = s.respond [k.code]) ∨
      ∃ u results, Effect s i u results ∧ t = u.respond (0x00#8 :: encodeOperands results) := by
  rcases exec_ends i s with ⟨k, hk⟩ | ⟨u, results, heff, hu⟩
  · rw [hk] at h
    exact .inl ⟨k, (Host.Outcome.next.inj h).symm⟩
  · rw [hu] at h
    exact .inr ⟨u, results, heff, (Host.Outcome.next.inj h).symm⟩

/-! ## Every step -/

theorem step_idle {s : State} (h : s.inputs = []) : step s = .next s := by
  simp [step, State.takeInput, h]

theorem step_reset {s : State} {rest : List HostInput} (h : s.inputs = .reset :: rest) :
    step s = .next ({ s with inputs := rest } : State).resetSignal := by
  simp [step, State.takeInput, h]

theorem step_refused {s : State} {d : Bytes} {e : DecodeError} {rest : List HostInput}
    (h : s.inputs = .command d :: rest) (hd : decode d = .error e) :
    step s = .next (({ s with inputs := rest } : State).respond [0x07#8]) := by
  simp [step, State.takeInput, h, hd, State.refuseDescriptor, State.raise, Status.code]

theorem step_command {s : State} {d : Bytes} {i : Instr} {rest : List HostInput}
    (h : s.inputs = .command d :: rest) (hd : decode d = .ok i) :
    step s = exec i { s with inputs := rest } := by
  simp [step, State.takeInput, h, hd]

/-- What a step can do, by what the host presents. -/
theorem step_cases {s t : State} (h : step s = .next t) :
    (s.inputs = [] ∧ t = s) ∨
    (∃ rest, s.inputs = .reset :: rest ∧ t = ({ s with inputs := rest } : State).resetSignal) ∨
    (∃ d e rest, s.inputs = .command d :: rest ∧ decode d = .error e ∧
      t = ({ s with inputs := rest } : State).respond [0x07#8]) ∨
    ∃ d i rest, s.inputs = .command d :: rest ∧ decode d = .ok i ∧
      exec i { s with inputs := rest } = .next t := by
  cases hin : s.inputs with
  | nil =>
    rw [step_idle hin] at h
    exact .inl ⟨rfl, (Host.Outcome.next.inj h).symm⟩
  | cons input rest =>
    cases input with
    | reset =>
      rw [step_reset hin] at h
      exact .inr (.inl ⟨rest, rfl, (Host.Outcome.next.inj h).symm⟩)
    | command d =>
      cases hd : decode d with
      | error e =>
        rw [step_refused hin hd] at h
        exact .inr (.inr (.inl ⟨d, e, rest, rfl, hd, (Host.Outcome.next.inj h).symm⟩))
      | ok i =>
        rw [step_command hin hd] at h
        exact .inr (.inr (.inr ⟨d, i, rest, rfl, hd, h⟩))

end Sys2Proof.Machine
end

section
/-! SUPPORT. What every effect keeps: the streams, the session's state machine, the invariant; and the
statements of spec/10_state.md that follow. -/

namespace Sys2Proof.Machine

/-! ## The streams (R20, R375) -/

/-- R340: a failure has one of the codes 01 to 07. -/
theorem Status.code_range (k : Status) : 1 ≤ k.code.toNat ∧ k.code.toNat ≤ 7 := by
  cases k <;> decide

/-- No effect takes an input, draws a random value or gives a response. -/
theorem Effect.streams {s u : State} {i : Instr} {results : List Operand}
    (h : Effect s i u results) :
    u.inputs = s.inputs ∧ u.draws = s.draws ∧ u.responses = s.responses := by
  cases h <;> exact ⟨rfl, rfl, rfl⟩

/-! ## `SES.STATE` (R32) -/

/-- Only `SES.SETSRTP` has an effect on `SES.STATE`, and it installs keys. -/
theorem Effect.ses_state {s u : State} {i : Instr} {results : List Operand}
    (h : Effect s i u results) :
    u.ses.state = s.ses.state ∨
      (∃ cipher useEkt key salt, i = .sesSetSrtp cipher useEkt key salt) ∧ results = [] ∧
        u.ses.state = .keyed := by
  cases h with
  | setSrtp => exact .inr ⟨⟨_, _, _, _, rfl⟩, rfl, rfl⟩
  | encode =>
    left
    rw [State.withSes_ses]
    split
    · exact s.ses.advance_state
    · rfl
  | _ => exact .inl rfl

/-- A state that stays takes neither edge of the state machine. -/
theorem SesState.not_moved {a b : SesState} {P Q : Prop} (h : b = a) :
    (a = .fresh → b = .keyed → P) ∧ (a = .keyed → b = .fresh → Q) := by
  subst h
  exact ⟨fun hfresh hkeyed => by simp [hfresh] at hkeyed,
    fun hkeyed hfresh => by simp [hkeyed] at hfresh⟩

/-- How a command ends for `SES.STATE`: it stays, or the command is a `SES.SETSRTP` that answered
`OK` and left it Keyed. -/
theorem exec_ses_state {i : Instr} {s t : State} (h : exec i s = .next t) :
    t.ses.state = s.ses.state ∨
      (∃ cipher useEkt key salt, i = .sesSetSrtp cipher useEkt key salt) ∧
        t.responses = s.responses ++ [[0x00#8]] ∧ t.ses.state = .keyed := by
  rcases exec_cases h with ⟨k, rfl⟩ | ⟨u, results, heff, rfl⟩
  · exact .inl rfl
  · obtain ⟨-, -, hresponses⟩ := heff.streams
    rcases heff.ses_state with hsame | ⟨hi, rfl, hkeyed⟩
    · exact .inl hsame
    · exact .inr ⟨hi, by rw [State.respond_responses, hresponses, encodeOperands_nil], hkeyed⟩

/-! ## The invariant (R24, R28, R30, R31) -/

theorem Pkt.reset_inv : Pkt.reset.Inv := by decide

theorem Rtcp.reset_inv : Rtcp.reset.Inv := by decide

theorem Kdf.reset_inv : Kdf.reset.Inv := by decide

/-- Legal whatever `SEQ0` the reset draws (R33). -/
theorem Ses.reset_inv (n : Nat) : (Ses.reset n).Inv := by
  refine ⟨⟨rfl, rfl, rfl, rfl⟩, fun _ => rfl, nofun, rfl, ?_, ?_⟩
  · intro uri huri
    rw [List.eq_of_mem_replicate huri]
    exact Nat.zero_le _
  · exact List.pairwise_replicate.mpr (.inr (.inl rfl))

/-- R149: every edit of a loaded PKT unit leaves a loaded one. -/
theorem RtpEdit.keeps_loaded {e : Ses} {i : Instr} {f : Pkt → Except Status Pkt} {p q : Pkt}
    (hf : RtpEdit e i f) (h : p.Loaded) (hq : f p = .ok q) : q.Loaded := by
  cases hf with
  | setP | setX | setM => cases hq; exact h.setOctet (by decide) _
  | setSeq | setTs | setSsrc => cases hq; exact h.setField (by decide) _
  | setCc => exact h.setCc hq
  | setPt => exact h.setPt hq
  | setCsrc => exact h.setCsrc hq
  | setHdrExt => exact h.setHdrExt hq
  | setPayload => exact h.setPayload hq
  | setPadding => exact h.setPadding hq
  | setGenExt => exact h.setGenExt hq
  | setVol => exact h.setVol hq
  | setOhb => exact h.setOhb hq
  | encGcm => exact h.encGcm hq
  | decGcm => exact h.decGcm hq

/-- R225: every edit of a loaded RTCP unit leaves a loaded one. -/
theorem RtcpEdit.keeps_loaded {i : Instr} {f : Rtcp → Except Status Rtcp} {r q : Rtcp}
    (hf : RtcpEdit i f) (h : r.Loaded) (hq : f r = .ok q) : q.Loaded := by
  cases hf with
  | setPt => cases hq; exact h.write (by simp)
  | setLenW | setSsrc => cases hq; exact h.setField (by decide) _
  | setIndex => exact h.setIndex hq
  | setE => exact h.setE hq
  | encGcm => exact h.encGcm hq
  | decGcm => exact h.decGcm hq

/-- The invariant reads neither counter that an encode advances. -/
theorem Ses.Inv.advance {e : Ses} (h : e.Inv) : e.advance.Inv := h

theorem Effect.inv {s u : State} {i : Instr} {results : List Operand}
    (h : Effect s i u results) (hs : s.Inv) : u.Inv := by
  obtain ⟨hpkt, hrtcp, hkdf, hses⟩ := hs
  cases h with
  | read => exact ⟨hpkt, hrtcp, hkdf, hses⟩
  | rtpNew hp => exact ⟨(hpkt.new hp).inv, hrtcp, hkdf, hses⟩
  | rtpLoad hp => exact ⟨(hpkt.loadWire hp).inv, hrtcp, hkdf, hses⟩
  | rtpEdit hf hv hp => exact ⟨(hf.keeps_loaded ⟨hv, hpkt⟩ hp).inv, hrtcp, hkdf, hses⟩
  | rtcpLoad hr => exact ⟨hpkt, (hrtcp.load hr).inv, hkdf, hses⟩
  | rtcpLoads hr => exact ⟨hpkt, (hrtcp.loads hr).inv, hkdf, hses⟩
  | rtcpEdit hf hv hr => exact ⟨hpkt, (hf.keeps_loaded ⟨hv, hrtcp⟩ hr).inv, hkdf, hses⟩
  | kdfInit hk => exact ⟨hpkt, hrtcp, hkdf.init hk, hses⟩
  | setSrtp _ hk hd => exact ⟨hpkt, hrtcp, hkdf.init hk, hses.install _ hd⟩
  | setExtMap _ huri => exact ⟨hpkt, hrtcp, hkdf, hses.mapUri huri.2⟩
  | setRewrite | setSeq => exact ⟨hpkt, hrtcp, hkdf, hses⟩
  | encode _ hv _ hfits hw =>
    have hpkt' := (Pkt.Loaded.encodePkt ⟨hv, hpkt⟩ hfits hw).inv
    refine ⟨hpkt', hrtcp, hkdf, ?_⟩
    rw [State.withSes_ses]
    split
    · exact hses.advance
    · exact hses
  | decode _ hmax hsplit hmin hq =>
    exact ⟨(hpkt.decode hmax hsplit hmin hq).inv, hrtcp, hkdf, hses⟩
  | encRtcp _ hv hr => exact ⟨hpkt, (Rtcp.Loaded.encGcm ⟨hv, hrtcp⟩ hr).inv, hkdf, hses⟩
  | decRtcp _ hl hr => exact ⟨hpkt, ((hrtcp.loads hl).decGcm hr).inv, hkdf, hses⟩

theorem exec_inv {i : Instr} {s t : State} (hs : s.Inv) (h : exec i s = .next t) : t.Inv := by
  rcases exec_cases h with ⟨k, rfl⟩ | ⟨u, results, heff, rfl⟩
  · exact hs
  · exact heff.inv hs

/-! ## The statements -/

/-- Settles O6. -/
theorem stepRunsTheDecodedCommand : Obligations.StepRunsTheDecodedCommand :=
  ⟨fun _ _ _ _ hin hd => step_command hin hd, fun _ hin => step_idle hin⟩

/-- Settles O14, unit by unit. -/
theorem resetHasTheInvariant : Obligations.ResetHasTheInvariant :=
  ⟨Pkt.reset_inv, Rtcp.reset_inv, Kdf.reset_inv, Ses.reset_inv 0⟩

/-- Settles O9: a command ends with a status, or with an effect that leaves the streams alone. -/
theorem everyCommandAnswersOnce : Obligations.EveryCommandAnswersOnce := by
  intro i s
  rcases exec_ends i s with ⟨k, hk⟩ | ⟨u, results, heff, hu⟩
  · obtain ⟨hmin, hmax⟩ := k.code_range
    exact ⟨_, hk, rfl, rfl, .inr ⟨k.code, hmin, hmax, rfl⟩⟩
  · obtain ⟨hinputs, hdraws, hresponses⟩ := heff.streams
    refine ⟨_, hu, hinputs, hdraws, .inl ⟨encodeOperands results, ?_⟩⟩
    rw [State.respond_responses, hresponses]

/-- Settles O13, by what the host presents: a reset installs legal registers, a command keeps them by
`Effect.inv`, and an idle or refused step touches none. -/
theorem stepKeepsTheInvariant : Obligations.StepKeepsTheInvariant := by
  intro s t hs h
  rcases step_cases h with ⟨-, rfl⟩ | ⟨rest, -, rfl⟩ | ⟨d, e, rest, -, -, rfl⟩ |
    ⟨d, i, rest, -, -, hexec⟩
  · exact hs
  · exact ⟨Pkt.reset_inv, Rtcp.reset_inv, Kdf.reset_inv, Ses.reset_inv s.draws⟩
  · exact hs
  · exact exec_inv (s := { s with inputs := rest }) hs hexec

/-- Settles O15, by what the host presents: only a command or a reset can change `SES.STATE`, and of
the commands only `SES.SETSRTP`, towards Keyed. -/
theorem sessionStateMachine : Obligations.SessionStateMachine := by
  intro s t h
  rcases step_cases h with ⟨-, rfl⟩ | ⟨rest, hin, rfl⟩ | ⟨d, e, rest, -, -, rfl⟩ |
    ⟨d, i, rest, hin, hd, hexec⟩
  · exact SesState.not_moved rfl
  · exact ⟨fun _ hkeyed => (nomatch hkeyed), fun _ _ => ⟨rest, hin⟩⟩
  · exact SesState.not_moved rfl
  · rcases exec_ses_state hexec with hsame | ⟨⟨cipher, useEkt, key, salt, rfl⟩, hanswer, hkeyed⟩
    · exact SesState.not_moved hsame
    · exact ⟨fun _ _ => ⟨d, rest, cipher, useEkt, key, salt, hin, hd, hanswer⟩,
        fun _ hfresh => by simp [hkeyed] at hfresh⟩

end Sys2Proof.Machine
end

section
/-! SUPPORT. Which registers of a slot each operation on it leaves alone. -/

namespace Sys2Proof.Machine

/-! ## PKT: an edit writes `PKT.BUF` and `PKT.LEN` and no other register -/

/-- `q` is `p` but for the packet bytes and their number: `PKT.VALID` and the pending EKT tag stay. -/
def Pkt.Edited (p q : Pkt) : Prop := ∃ buf len, q = { p with buf := buf, len := len }

theorem Pkt.Edited.refl (p : Pkt) : p.Edited p := ⟨p.buf, p.len, rfl⟩

theorem Pkt.Edited.write {p q : Pkt} (h : p.Edited q) (a : Nat) (bs : Bytes) :
    p.Edited (q.write a bs) := by
  obtain ⟨buf, len, rfl⟩ := h
  exact ⟨_, len, rfl⟩

theorem Pkt.Edited.setLen {p q : Pkt} (h : p.Edited q) (n : Nat) : p.Edited (q.setLen n) := by
  obtain ⟨buf, len, rfl⟩ := h
  exact ⟨buf, n, rfl⟩

theorem Pkt.Edited.trans {p q r : Pkt} (hpq : p.Edited q) (hqr : q.Edited r) : p.Edited r := by
  obtain ⟨_, _, rfl⟩ := hpq
  obtain ⟨buf, len, rfl⟩ := hqr
  exact ⟨buf, len, rfl⟩

theorem Pkt.Edited.valid_eq {p q : Pkt} (h : p.Edited q) : q.valid = p.valid := by
  obtain ⟨buf, len, rfl⟩ := h
  rfl

theorem Pkt.Edited.ekt_eq {p q : Pkt} (h : p.Edited q) : q.ekt = p.ekt ∧ q.ektLen = p.ektLen := by
  obtain ⟨buf, len, rfl⟩ := h
  exact ⟨rfl, rfl⟩

theorem Pkt.edited_write (p : Pkt) (a : Nat) (bs : Bytes) : p.Edited (p.write a bs) :=
  (Edited.refl p).write a bs

theorem Pkt.edited_setCc {p q : Pkt} {cc : BitVec 8} (hq : p.setCc cc = .ok q) : p.Edited q := by
  unfold Pkt.setCc at hq
  split_ifs at hq
  cases hq
  exact p.edited_write _ _

theorem Pkt.edited_setPt {p q : Pkt} {pt : BitVec 8} (hq : p.setPt pt = .ok q) : p.Edited q := by
  unfold Pkt.setPt at hq
  split_ifs at hq
  cases hq
  exact p.edited_write _ _

/-- What R162, R163, R164 and R166 have in common: a write, then octet 0 and the new length. -/
theorem Pkt.edited_rewriteTail (p : Pkt) (a n : Nat) (bs : Bytes) (v : Byte) :
    p.Edited (((p.write a bs).write 0 [v]).setLen n) :=
  ((p.edited_write a bs).write 0 [v]).setLen n

theorem Pkt.edited_setCsrc {p q : Pkt} {list : Bytes} (hq : p.setCsrc list = .ok q) :
    p.Edited q := by
  unfold Pkt.setCsrc at hq
  split_ifs at hq
  cases hq
  exact p.edited_rewriteTail _ _ _ _

theorem Pkt.edited_setHdrExt {p q : Pkt} {profile : BitVec 16} {data : Bytes}
    (hq : p.setHdrExt profile data = .ok q) : p.Edited q := by
  unfold Pkt.setHdrExt at hq
  split_ifs at hq
  cases hq
  exact p.edited_rewriteTail _ _ _ _

theorem Pkt.edited_setPayload {p q : Pkt} {data : Bytes} (hq : p.setPayload data = .ok q) :
    p.Edited q := by
  unfold Pkt.setPayload at hq
  split_ifs at hq
  cases hq
  exact p.edited_rewriteTail _ _ _ _

theorem Pkt.edited_setPadding {p q : Pkt} {sizeMult : Nat} (hq : p.setPadding sizeMult = .ok q) :
    p.Edited q := by
  unfold Pkt.setPadding at hq
  dsimp only at hq
  split_ifs at hq
  · cases hq
    exact .refl p
  · cases hq
    exact p.edited_rewriteTail _ _ _ _

theorem Pkt.edited_setGenExt {p q : Pkt} {id : BitVec 8} {data : Bytes}
    (hq : p.setGenExt id data = .ok q) : p.Edited q := by
  unfold Pkt.setGenExt at hq
  split_ifs at hq
  exact Pkt.edited_setHdrExt hq

theorem Pkt.edited_setVol {p q : Pkt} {volId : Option (BitVec 8)} {vad : Bool} {dbov : Int}
    (hq : p.setVol volId vad dbov = .ok q) : p.Edited q := by
  unfold Pkt.setVol at hq
  split_ifs at hq
  cases volId with
  | none => cases hq
  | some id => exact Pkt.edited_setGenExt hq

theorem Pkt.edited_setOhb {p q : Pkt} {pt : BitVec 8} {seq : BitVec 16} {m : Bool}
    (hq : p.setOhb pt seq m = .ok q) : p.Edited q := by
  obtain ⟨-, rfl⟩ := Pkt.setOhb_ok hq
  exact (p.edited_write _ _).setLen _

theorem Pkt.edited_encGcm {p q : Pkt} {roc : BitVec 32} {key salt : Bytes}
    (hq : p.encGcm roc key salt = .ok q) : p.Edited q := by
  obtain ⟨-, -, sealed, -, rfl⟩ := Pkt.encGcm_ok hq
  exact (p.edited_write _ sealed).setLen _

theorem Pkt.edited_decGcm {p q : Pkt} {roc : BitVec 32} {key salt : Bytes}
    (hq : p.decGcm roc key salt = .ok q) : p.Edited q := by
  obtain ⟨-, plain, -, rfl⟩ := Pkt.decGcm_ok hq
  exact (p.edited_write _ plain).setLen _

/-- R149: every `RTP.*` command on a loaded slot only edits it. -/
theorem RtpEdit.edited {e : Ses} {i : Instr} {f : Pkt → Except Status Pkt} {p q : Pkt}
    (hf : RtpEdit e i f) (hq : f p = .ok q) : p.Edited q := by
  cases hf with
  | setP | setX | setM | setSeq | setTs | setSsrc => cases hq; exact p.edited_write _ _
  | setCc => exact Pkt.edited_setCc hq
  | setPt => exact Pkt.edited_setPt hq
  | setCsrc => exact Pkt.edited_setCsrc hq
  | setHdrExt => exact Pkt.edited_setHdrExt hq
  | setPayload => exact Pkt.edited_setPayload hq
  | setPadding => exact Pkt.edited_setPadding hq
  | setGenExt => exact Pkt.edited_setGenExt hq
  | setVol => exact Pkt.edited_setVol hq
  | setOhb => exact Pkt.edited_setOhb hq
  | encGcm => exact Pkt.edited_encGcm hq
  | decGcm => exact Pkt.edited_decGcm hq

/-- R287: `SES.ENCODE` sends the pending EKT tag and keeps it. -/
theorem Pkt.edited_encodePkt {p w : Pkt} {e : Ses} (hw : e.encodePkt p = .ok w) : p.Edited w := by
  unfold Ses.encodePkt at hw
  split at hw
  · cases hw
  next withOhb hohb =>
  split at hw
  · cases hw
  next sealedPkt hseal =>
  have hedited : p.Edited sealedPkt :=
    ((p.edited_write _ _).trans (Pkt.edited_setOhb hohb)).trans (Pkt.edited_encGcm hseal)
  cases hw
  split
  · exact (hedited.write _ _).setLen _
  · exact hedited

/-! ## PKT: a load leaves the slot holding a packet (R351) -/

theorem Pkt.new_valid {p q : Pkt} {pt : BitVec 8} {seq : BitVec 16} {ts ssrc : BitVec 32}
    {payload : Bytes} (hq : p.new pt seq ts ssrc payload = .ok q) : q.valid = true := by
  unfold Pkt.new at hq
  split_ifs at hq
  cases hq
  rfl

theorem Pkt.loadWire_valid {p q : Pkt} {data : Bytes} (hq : p.loadWire data = .ok q) :
    q.valid = true := by
  unfold Pkt.loadWire at hq
  split_ifs at hq
  cases hq
  rfl

/-- R290: the copy that `SES.DECODE` opens and restores counts as loaded (log 7). -/
theorem Pkt.decodePkt_valid {p q : Pkt} {e : Ses} {packet : Bytes}
    (hq : e.decodePkt p packet = .ok q) : q.valid = true := by
  unfold Ses.decodePkt at hq
  split at hq
  · cases hq
  next opened hopen =>
  split at hq
  · cases hq
  cases hq
  exact (Pkt.edited_decGcm hopen).valid_eq

/-! ## RTCP: no operation empties the slot (R351) -/

theorem Rtcp.load_valid {r q : Rtcp} {data : Bytes} (hq : r.load data = .ok q) :
    q.valid = true := by
  unfold Rtcp.load at hq
  split_ifs at hq
  cases hq
  rfl

theorem Rtcp.loads_valid {r q : Rtcp} {data : Bytes} (hq : r.loads data = .ok q) :
    q.valid = true := by
  unfold Rtcp.loads at hq
  split_ifs at hq
  cases hq
  rfl

theorem Rtcp.setIndex_valid {r q : Rtcp} {index : BitVec 32} (hq : r.setIndex index = .ok q) :
    q.valid = r.valid := by
  unfold Rtcp.setIndex at hq
  split_ifs at hq
  cases hq
  rfl

theorem Rtcp.setE_valid {r q : Rtcp} {e : Bool} (hq : r.setE e = .ok q) : q.valid = r.valid := by
  unfold Rtcp.setE at hq
  split at hq <;> cases hq
  rfl

theorem Rtcp.encGcm_valid {r q : Rtcp} {key salt : Bytes} (hq : r.encGcm key salt = .ok q) :
    q.valid = r.valid := by
  unfold Rtcp.encGcm at hq
  split_ifs at hq
  cases hq
  rfl

theorem Rtcp.decGcm_valid {r q : Rtcp} {key salt : Bytes} (hq : r.decGcm key salt = .ok q) :
    q.valid = r.valid := by
  unfold Rtcp.decGcm at hq
  split_ifs at hq
  dsimp only at hq
  split at hq
  · cases hq
  · cases hq
    rfl

/-- R225: every `RTCP.*` command on a loaded slot leaves `RTCP.VALID`. -/
theorem RtcpEdit.valid_eq {i : Instr} {f : Rtcp → Except Status Rtcp} {r q : Rtcp}
    (hf : RtcpEdit i f) (hq : f r = .ok q) : q.valid = r.valid := by
  cases hf with
  | setPt | setLenW | setSsrc => cases hq; rfl
  | setIndex => exact Rtcp.setIndex_valid hq
  | setE => exact Rtcp.setE_valid hq
  | encGcm => exact Rtcp.encGcm_valid hq
  | decGcm => exact Rtcp.decGcm_valid hq

end Sys2Proof.Machine
end

section
/-! SUPPORT. The footprint of a command: which units it can write, by its opcode, and what it can do to
each of them. -/

namespace Sys2Proof.Machine

/-! ## Opcode ranges -/

theorem opcodeIn_iff {i : Instr} {lo hi : Nat} :
    opcodeIn i lo hi = true ↔ lo ≤ i.opcode.toNat ∧ i.opcode.toNat ≤ hi := by
  simp [opcodeIn]

theorem RtpEdit.opcode_range {e : Ses} {i : Instr} {f : Pkt → Except Status Pkt}
    (hf : RtpEdit e i f) : opcodeIn i 0x12 0x4D = true := by
  cases hf <;> rfl

theorem RtcpEdit.opcode_range {i : Instr} {f : Rtcp → Except Status Rtcp} (hf : RtcpEdit i f) :
    opcodeIn i 0x50 0x5F = true := by
  cases hf <;> rfl

/-! ## What a command can do to each unit -/

/-- PKT: `RTP.NEW`, `RTP.LOAD` and `SES.DECODE` fill the slot; the other `RTP.*` commands and
`SES.ENCODE` edit it. -/
inductive PktWrite (i : Instr) (p : Pkt) : Pkt → Prop
  | none : PktWrite i p p
  | fill {q : Pkt} (hi : opcodeIn i 0x10 0x11 = true ∨ opcodeIn i 0x75 0x75 = true)
      (hv : q.valid = true) : PktWrite i p q
  | edit {q : Pkt} (hi : opcodeIn i 0x12 0x4D = true ∨ opcodeIn i 0x74 0x74 = true)
      (hq : p.Edited q) : PktWrite i p q

/-- RTCP: the `RTCP.*` commands and the session's RTCP transforms write it and never empty it. -/
inductive RtcpWrite (i : Instr) (r : Rtcp) : Rtcp → Prop
  | none : RtcpWrite i r r
  | write {q : Rtcp} (hi : opcodeIn i 0x50 0x5F = true ∨ opcodeIn i 0x76 0x77 = true)
      (hv : r.valid = true → q.valid = true) : RtcpWrite i r q

/-- KDF: `KDF.INIT` and `SES.SETSRTP` write it. -/
inductive KdfWrite (i : Instr) (k : Kdf) : Kdf → Prop
  | none : KdfWrite i k k
  | write {q : Kdf} (hi : opcodeIn i 0x60 0x60 = true ∨ opcodeIn i 0x70 0x70 = true) :
      KdfWrite i k q

/-- SES: `SES.SETSRTP` installs keys, the other settings write it, `SES.ENCODE` counts. -/
inductive SesWrite (i : Instr) (e : Ses) : Ses → Prop
  | none : SesWrite i e e
  | install {cipher : BitVec 16} {useEkt : Bool} {d : StreamKeys}
      (hi : opcodeIn i 0x70 0x70 = true) : SesWrite i e (e.install cipher useEkt d)
  | setting {f : Ses} (hi : opcodeIn i 0x71 0x73 = true) : SesWrite i e f
  | count {seq : BitVec 16} {roc : BitVec 32} (hi : opcodeIn i 0x74 0x74 = true) :
      SesWrite i e { e with seq := seq, roc := roc }

theorem PktWrite.eq {i : Instr} {p q : Pkt} (h : PktWrite i p q)
    (hi : ¬ (0x10 ≤ i.opcode.toNat ∧ i.opcode.toNat ≤ 0x4D ∨ i.opcode.toNat = 0x74 ∨
      i.opcode.toNat = 0x75)) : q = p := by
  cases h with
  | none => rfl
  | fill hop | edit hop => rw [opcodeIn_iff, opcodeIn_iff] at hop; omega

theorem PktWrite.valid {i : Instr} {p q : Pkt} (h : PktWrite i p q) (hp : p.valid = true) :
    q.valid = true := by
  cases h with
  | none => exact hp
  | fill _ hv => exact hv
  | edit _ hq => exact hq.valid_eq.trans hp

theorem PktWrite.ekt {i : Instr} {p q : Pkt} (h : PktWrite i p q)
    (hload : opcodeIn i 0x10 0x11 = false) (hdecode : opcodeIn i 0x75 0x75 = false) :
    q.ekt = p.ekt ∧ q.ektLen = p.ektLen := by
  cases h with
  | none => exact ⟨rfl, rfl⟩
  | fill hi => simp [hload, hdecode] at hi
  | edit _ hq => exact hq.ekt_eq

theorem RtcpWrite.eq {i : Instr} {r q : Rtcp} (h : RtcpWrite i r q)
    (hi : ¬ (0x50 ≤ i.opcode.toNat ∧ i.opcode.toNat ≤ 0x5F ∨
      0x76 ≤ i.opcode.toNat ∧ i.opcode.toNat ≤ 0x77)) : q = r := by
  cases h with
  | none => rfl
  | write hop => rw [opcodeIn_iff, opcodeIn_iff] at hop; omega

theorem RtcpWrite.valid {i : Instr} {r q : Rtcp} (h : RtcpWrite i r q) (hr : r.valid = true) :
    q.valid = true := by
  cases h with
  | none => exact hr
  | write _ hv => exact hv hr

theorem KdfWrite.eq {i : Instr} {k q : Kdf} (h : KdfWrite i k q)
    (hi : ¬ (i.opcode.toNat = 0x60 ∨ i.opcode.toNat = 0x70)) : q = k := by
  cases h with
  | none => rfl
  | write hop => rw [opcodeIn_iff, opcodeIn_iff] at hop; omega

theorem SesWrite.eq {i : Instr} {e f : Ses} (h : SesWrite i e f)
    (hi : ¬ (0x70 ≤ i.opcode.toNat ∧ i.opcode.toNat ≤ 0x74)) : f = e := by
  cases h with
  | none => rfl
  | install hop | setting hop | count hop => rw [opcodeIn_iff] at hop; omega

/-- R281: `SES.SETSRTP` leaves the counters, `SES.REWRITE` and the extension map. -/
theorem SesWrite.setSrtp {i : Instr} {e f : Ses} (h : SesWrite i e f)
    (hi : i.opcode.toNat = 0x70) :
    f.seq = e.seq ∧ f.roc = e.roc ∧ f.rewrite = e.rewrite ∧ f.extMap = e.extMap := by
  cases h with
  | none | install => exact ⟨rfl, rfl, rfl, rfl⟩
  | setting hop | count hop => rw [opcodeIn_iff] at hop; omega

/-- R287: `SES.ENCODE` writes only the two counters. -/
theorem SesWrite.encode {i : Instr} {e f : Ses} (h : SesWrite i e f) (hi : i.opcode.toNat = 0x74) :
    ∃ seq roc, f = { e with seq := seq, roc := roc } := by
  cases h with
  | none => exact ⟨e.seq, e.roc, rfl⟩
  | count => exact ⟨_, _, rfl⟩
  | install hop | setting hop => rw [opcodeIn_iff] at hop; omega

/-! ## Every command -/

/-- What command `i` can write in state `s`, unit by unit, when it leaves state `t`. -/
structure Footprint (i : Instr) (s t : State) : Prop where
  pkt : PktWrite i s.pkt t.pkt
  rtcp : RtcpWrite i s.rtcp t.rtcp
  kdf : KdfWrite i s.kdf t.kdf
  ses : SesWrite i s.ses t.ses

theorem Effect.footprint {s u : State} {i : Instr} {results : List Operand}
    (h : Effect s i u results) : Footprint i s u := by
  cases h with
  | read => exact ⟨.none, .none, .none, .none⟩
  | rtpNew hp => exact ⟨.fill (.inl rfl) (Pkt.new_valid hp), .none, .none, .none⟩
  | rtpLoad hp => exact ⟨.fill (.inl rfl) (Pkt.loadWire_valid hp), .none, .none, .none⟩
  | rtpEdit hf _ hp =>
    exact ⟨.edit (.inl hf.opcode_range) (hf.edited hp), .none, .none, .none⟩
  | rtcpLoad hr => exact ⟨.none, .write (.inl rfl) fun _ => Rtcp.load_valid hr, .none, .none⟩
  | rtcpLoads hr => exact ⟨.none, .write (.inl rfl) fun _ => Rtcp.loads_valid hr, .none, .none⟩
  | rtcpEdit hf _ hr =>
    exact ⟨.none, .write (.inl hf.opcode_range) (hf.valid_eq hr).trans, .none, .none⟩
  | kdfInit => exact ⟨.none, .none, .write (.inl rfl), .none⟩
  | setSrtp => exact ⟨.none, .none, .write (.inr rfl), .install rfl⟩
  | setExtMap | setRewrite | setSeq => exact ⟨.none, .none, .none, .setting rfl⟩
  | encode _ _ _ _ hw =>
    refine ⟨.edit (.inr rfl) (Pkt.edited_encodePkt hw), .none, .none, ?_⟩
    rw [State.withSes_ses]
    split
    · exact .count rfl
    · exact .none
  | decode _ _ _ _ hq =>
    have hv := Pkt.decodePkt_valid hq
    exact ⟨.fill (.inr rfl) hv, .none, .none, .none⟩
  | encRtcp _ _ hr => exact ⟨.none, .write (.inr rfl) (Rtcp.encGcm_valid hr).trans, .none, .none⟩
  | decRtcp _ hl hr =>
    have hv := (Rtcp.decGcm_valid hr).trans (Rtcp.loads_valid hl)
    exact ⟨.none, .write (.inr rfl) fun _ => hv, .none, .none⟩

/-- R60, R343: what a command can write, whether it answers `OK` or fails. -/
theorem exec_footprint {i : Instr} {s t : State} (h : exec i s = .next t) : Footprint i s t := by
  rcases exec_cases h with ⟨k, rfl⟩ | ⟨u, results, heff, rfl⟩
  · exact ⟨.none, .none, .none, .none⟩
  · obtain ⟨hpkt, hrtcp, hkdf, hses⟩ := heff.footprint
    exact ⟨hpkt, hrtcp, hkdf, hses⟩

/-- Settles O18: each clause names an opcode range, and a unit outside the footprint of that range
stays. -/
theorem commandsWriteOnlyTheirUnits : Obligations.CommandsWriteOnlyTheirUnits := by
  intro i s t h
  obtain ⟨hpkt, hrtcp, hkdf, hses⟩ := exec_footprint h
  refine ⟨?rtp, ?rtcp, ?kdf, ?setSrtp, ?settings, ?encode, ?decode, ?rtcpTransforms,
    hpkt.valid, hrtcp.valid, hpkt.ekt⟩
  case encode =>
    rintro rfl
    have hop : Instr.sesEncode.opcode.toNat = 0x74 := rfl
    exact ⟨hrtcp.eq (by omega), hkdf.eq (by omega), hses.encode hop⟩
  all_goals
    intro hop
    rw [opcodeIn_iff] at hop
  case rtp | decode => exact ⟨hrtcp.eq (by omega), hkdf.eq (by omega), hses.eq (by omega)⟩
  case rtcp | rtcpTransforms =>
    exact ⟨hpkt.eq (by omega), hkdf.eq (by omega), hses.eq (by omega)⟩
  case kdf => exact ⟨hpkt.eq (by omega), hrtcp.eq (by omega), hses.eq (by omega)⟩
  case setSrtp => exact ⟨hpkt.eq (by omega), hrtcp.eq (by omega), hses.setSrtp (by omega)⟩
  case settings => exact ⟨hpkt.eq (by omega), hrtcp.eq (by omega), hkdf.eq (by omega)⟩

end Sys2Proof.Machine
end

section
/-! SUPPORT. Operands on the wire, the directions Laws/Operand.lean leaves open: an operand that
is read is the one its bytes encode, an operand cut short is refused; and both for operand lists. -/

namespace Sys2Proof

/-! ## The next bytes of a descriptor (R107 (3)) -/

theorem takeBytes_of_short {n : Nat} {bs : Bytes} (h : bs.length < n) :
    takeBytes n bs = .error .truncatedOperand := by
  simp [takeBytes, h]

theorem takeBytes_map_ok {α : Type} {n : Nat} {bs : Bytes} {f : Bytes × Bytes → α} {x : α}
    (h : (takeBytes n bs).map f = .ok x) : ∃ a b, bs = a ++ b ∧ a.length = n ∧ f (a, b) = x := by
  cases htake : takeBytes n bs with
  | error e => simp [htake, Except.map] at h
  | ok r =>
    obtain ⟨hbs, hlen⟩ := takeBytes_ok htake
    exact ⟨r.1, r.2, hbs, hlen, by simpa [htake, Except.map] using h⟩

/-- Where a cut falls in two parts: inside the first, or behind it. -/
theorem cut_of_append {a b d cut : Bytes} (h : a ++ b = d ++ cut) :
    (∃ tail, tail ≠ [] ∧ a = d ++ tail) ∨ ∃ body, d = a ++ body ∧ b = body ++ cut := by
  rcases List.append_eq_append_iff.mp h with hbehind | ⟨tail, ha, hcut⟩
  · exact .inr hbehind
  · by_cases hnil : tail = []
    · subst hnil
      exact .inr ⟨[], by simpa using ha.symm, by simpa using hcut.symm⟩
    · exact .inl ⟨tail, hnil, ha⟩

/-- What is left of `n` bytes after a cut is too short for `n`. -/
theorem takeBytes_of_cut {n : Nat} {bs d cut : Bytes} (hlen : bs.length = n) (hbs : bs = d ++ cut)
    (hcut : cut ≠ []) : takeBytes n d = .error .truncatedOperand := by
  have hpos := List.length_pos_iff.mpr hcut
  have hsum : bs.length = d.length + cut.length := by rw [hbs, List.length_append]
  exact takeBytes_of_short (by omega)

/-! ## One operand (R108) -/

theorem fitsSignedByte_toInt (v : BitVec 8) : fitsSignedByte v.toInt = true := by
  have hlow := BitVec.le_toInt v
  have hhigh := BitVec.toInt_lt (x := v)
  simp only [fitsSignedByte, Bool.and_eq_true, decide_eq_true_eq]
  omega

/-- R108: an operand that is read is one its encoding carries, and that encoding was read. -/
theorem decodeOperand_ok {t : OperandType} {bs rest : Bytes} {op : Operand}
    (h : decodeOperand t bs = .ok (op, rest)) :
    op.fits = true ∧ bs = encodeOperand op ++ rest := by
  cases t with
  | u8 | u16 | u32 | u48 =>
    obtain ⟨a, b, rfl, hlen, heq⟩ := takeBytes_map_ok h
    cases heq
    exact ⟨rfl, by rw [encodeOperand, beBytes_ofNat_beNat hlen rfl]⟩
  | i8 =>
    obtain ⟨a, b, rfl, hlen, heq⟩ := takeBytes_map_ok h
    cases heq
    refine ⟨fitsSignedByte_toInt _, ?_⟩
    rw [encodeOperand, BitVec.ofInt_toInt, ← beBytes_one, beBytes_ofNat_beNat hlen rfl]
  | bool =>
    rcases bs with _ | ⟨b, bs⟩
    · cases h
    · simp only [decodeOperand] at h
      split at h
      · next hb => cases h; exact ⟨rfl, by rw [hb]; rfl⟩
      · split at h
        · next hb => cases h; exact ⟨rfl, by rw [hb]; rfl⟩
        · cases h
  | bytes =>
    simp only [decodeOperand] at h
    split at h
    · cases h
    · next len tail hlength =>
      obtain ⟨rfl, hlen⟩ := takeBytes_ok hlength
      obtain ⟨data, b, rfl, hdata, heq⟩ := takeBytes_map_ok h
      cases heq
      have hlt := beNat_lt len
      rw [hlen] at hlt
      refine ⟨by simp only [Operand.fits, fitsLength, decide_eq_true_eq]; omega, ?_⟩
      rw [encodeOperand_bytes, hdata, beBytes_beNat_of_length hlen, List.append_assoc]

/-- R107 (3): an operand cut short anywhere is refused. -/
theorem decodeOperand_of_cut {op : Operand} {d cut : Bytes} (hfits : op.fits = true)
    (henc : encodeOperand op = d ++ cut) (hcut : cut ≠ []) :
    decodeOperand op.type d = .error .truncatedOperand := by
  cases op with
  | u8 v | u16 v | u32 v | u48 v =>
    rw [Operand.type, decodeOperand, takeBytes_of_cut (length_beBytes ..) henc hcut]
    rfl
  | i8 v =>
    rw [Operand.type, decodeOperand, takeBytes_of_cut (n := 1) rfl henc hcut]
    rfl
  | bool b =>
    obtain rfl : d = [] := by
      rcases List.append_eq_singleton_iff.mp henc.symm with ⟨hd, -⟩ | ⟨-, hnil⟩
      · exact hd
      · exact absurd hnil hcut
    rfl
  | bytes data =>
    simp only [Operand.fits, fitsLength, decide_eq_true_eq] at hfits
    rw [encodeOperand_bytes] at henc
    rw [Operand.type, decodeOperand]
    rcases cut_of_append henc with ⟨tail, htail, hlength⟩ | ⟨body, rfl, hdata⟩
    · rw [takeBytes_of_cut (length_beBytes ..) hlength htail]
    · rw [takeBytes_append 2 _ _ (length_beBytes ..)]
      simp only [beNat_beBytes_of_lt (n := 2) (v := data.length) (by omega),
        takeBytes_of_cut rfl hdata hcut]
      rfl

/-! ## Operand lists (R105, R107) -/

theorem decodeOperands_encodeOperands {ops : List Operand} (rest : Bytes)
    (hfits : ∀ op ∈ ops, op.fits = true) :
    decodeOperands (ops.map Operand.type) (encodeOperands ops ++ rest) = .ok (ops, rest) := by
  induction ops with
  | nil => rfl
  | cons op ops ih =>
    obtain ⟨hop, hops⟩ := List.forall_mem_cons.mp hfits
    rw [List.map_cons, decodeOperands, encodeOperands_cons, List.append_assoc,
      decodeOperand_encodeOperand op _ hop]
    simp only [ih hops]

theorem decodeOperands_ok {ts : List OperandType} {bs rest : Bytes} {ops : List Operand}
    (h : decodeOperands ts bs = .ok (ops, rest)) :
    (∀ op ∈ ops, op.fits = true) ∧ bs = encodeOperands ops ++ rest := by
  induction ts generalizing bs ops with
  | nil => cases h; exact ⟨by simp, rfl⟩
  | cons t ts ih =>
    rw [decodeOperands] at h
    split at h
    · cases h
    · next op tail hop =>
      split at h
      · cases h
      · next ops' rest' hops =>
        cases h
        obtain ⟨hfit, rfl⟩ := decodeOperand_ok hop
        obtain ⟨hfits, rfl⟩ := ih hops
        exact ⟨List.forall_mem_cons.mpr ⟨hfit, hfits⟩, by
          rw [encodeOperands_cons, List.append_assoc]⟩

theorem decodeOperands_of_cut {ops : List Operand} {d cut : Bytes}
    (hfits : ∀ op ∈ ops, op.fits = true) (henc : encodeOperands ops = d ++ cut) (hcut : cut ≠ []) :
    decodeOperands (ops.map Operand.type) d = .error .truncatedOperand := by
  induction ops generalizing d with
  | nil => exact absurd (List.append_eq_nil_iff.mp henc.symm).2 hcut
  | cons op ops ih =>
    obtain ⟨hop, hops⟩ := List.forall_mem_cons.mp hfits
    rw [encodeOperands_cons] at henc
    rw [List.map_cons, decodeOperands]
    rcases cut_of_append henc with ⟨tail, htail, hinside⟩ | ⟨body, rfl, hbehind⟩
    · rw [decodeOperand_of_cut hop hinside htail]
    · rw [decodeOperand_encodeOperand op body hop]
      simp only [ih hops hbehind]

end Sys2Proof
end

section
/-! SUPPORT. The opcode map and the decoder: the map and a command's opcode and operands agree in
both directions, and what `decode` answers, one rule per cause of R107. -/

namespace Sys2Proof

/-! ## The opcode map (R111, R112) -/

open Laws.OperandsFit in
/-- R112: the opcode map agrees with every command's opcode and operands. -/
theorem operandsFit (i : Instr) : Statement i := by
  cases i
  exacts [rtpNew .., rtpLoad .., rtpStore, rtpGetP, rtpGetX, rtpGetCc, rtpGetM, rtpGetPt,
    rtpGetSeq, rtpGetTs, rtpGetSsrc, rtpSetP .., rtpSetX .., rtpSetCc .., rtpSetM .., rtpSetPt ..,
    rtpSetSeq .., rtpSetTs .., rtpSetSsrc .., rtpSetCsrc .., rtpSetHdrExt .., rtpSetPayload ..,
    rtpSetPadding .., rtpGetPayload, rtpGetCsrc, rtpGetHdrExt, rtpSetGenExt .., rtpGetGenExt ..,
    rtpSetVol .., rtpGetVol, rtpSetOhb .., rtpGetOhb, rtpGetOhbLen, rtpEncGcm .., rtpDecGcm ..,
    rtcpLoad .., rtcpLoads .., rtcpStore, rtcpGetPt, rtcpGetLenW, rtcpGetLenB, rtcpGetSsrc,
    rtcpGetIndex, rtcpGetE, rtcpSetPt .., rtcpSetLenW .., rtcpSetSsrc .., rtcpSetIndex ..,
    rtcpSetE .., rtcpEncGcm .., rtcpDecGcm .., kdfInit .., kdfDerive .., kdfDeriveStream ..,
    sesSetSrtp .., sesSetExtMap .., sesSetRewrite .., sesSetSeq .., sesEncode, sesDecode ..,
    sesEncRtcp, sesDecRtcp .., sesGetSeq, sesGetRoc]

theorem operandTypes_opcode (i : Instr) :
    operandTypes i.opcode = some (i.operands.map Operand.type) := (operandsFit i).1

theorem ofOperands_opcode (i : Instr) : Instr.ofOperands i.opcode i.operands = some i :=
  (operandsFit i).2.1

/-- R108: a command is well-formed exactly when every operand is one its encoding can carry. -/
theorem wellFormed_iff (i : Instr) : WellFormed i = true ↔ ∀ op ∈ i.operands, op.fits = true := by
  refine ⟨(operandsFit i).2.2, ?_⟩
  cases i <;> simp [Instr.operands, Operand.fits, WellFormed]

/-- R112: the map names a command only for that command's own opcode and operands. -/
theorem ofOperands_some {op : Byte} {ops : List Operand} {i : Instr}
    (h : Instr.ofOperands op ops = some i) : i.opcode = op ∧ i.operands = ops := by
  unfold Instr.ofOperands at h
  split at h
  case h_65 => cases h
  all_goals
    next hop =>
      split at h
      · cases h
        exact ⟨BitVec.eq_of_toNat_eq hop.symm, rfl⟩
      · cases h

/-- R111: the map gives an operand list for the assigned opcodes and no others. -/
theorem operandTypes_eq_none_iff (op : Byte) :
    operandTypes op = none ↔ Machine.unassignedOpcode op = true := by
  revert op
  decide

/-! ## What `decode` answers (R107) -/

theorem decode_unassigned {op : Byte} (bs : Bytes) (h : operandTypes op = none) :
    decode (op :: bs) = .error (.unassignedOpcode op) := by
  simp only [decode, h]

theorem decode_operand_error {op : Byte} {ts : List OperandType} {bs : Bytes} {e : DecodeError}
    (ht : operandTypes op = some ts) (hops : decodeOperands ts bs = .error e) :
    decode (op :: bs) = .error e := by
  simp only [decode, ht, hops]

/-- R105, R107 (4): after a command's own operands, the end is the command and anything else is
refused. -/
theorem decode_encode_append {i : Instr} (hwf : WellFormed i = true) (extra : Bytes) :
    decode (encode i ++ extra) = if extra = [] then .ok i else .error .trailingBytes := by
  have hops := decodeOperands_encodeOperands extra ((wellFormed_iff i).mp hwf)
  rw [encode, List.cons_append]
  cases extra with
  | nil => simp only [decode, operandTypes_opcode, hops, ofOperands_opcode, if_true]
  | cons b bs => simp [decode, operandTypes_opcode, hops]

/-- What a descriptor that decodes is made of. -/
theorem decode_ok {d : Bytes} {i : Instr} (h : decode d = .ok i) :
    ∃ op bs ts ops, d = op :: bs ∧ decodeOperands ts bs = .ok (ops, []) ∧
      Instr.ofOperands op ops = some i := by
  cases d with
  | nil => cases h
  | cons op bs =>
    rw [decode] at h
    split at h
    · cases h
    · next ts _ =>
      split at h
      · cases h
      · cases h
      · next ops hops =>
        split at h
        · cases h
        · next hi =>
          cases h
          exact ⟨op, bs, ts, ops, rfl, hops, hi⟩

/-- R107, R112: every assigned opcode is some command's; with zero bytes for its operands it is a
descriptor. -/
theorem exists_opcode_eq {op : Byte} (h : operandTypes op ≠ none) : ∃ i : Instr, i.opcode = op := by
  have hdescriptor : ∀ op : Byte, ∀ ts ∈ operandTypes op,
      (decode (op :: List.replicate (operandsLength ts []) 0x00#8)).toOption.isSome = true := by
    decide
  obtain ⟨ts, hts⟩ := Option.ne_none_iff_exists'.mp h
  have hsome := hdescriptor op ts hts
  cases hd : decode (op :: List.replicate (operandsLength ts []) 0x00#8) with
  | error e => simp [hd, Except.toOption] at hsome
  | ok i =>
    obtain ⟨_, _, _, _, heq, -, hi⟩ := decode_ok hd
    cases heq
    exact ⟨i, (ofOperands_some hi).1⟩

end Sys2Proof
end

section
/-! SUPPORT. The statements of spec/30_encoding.md. -/

namespace Sys2Proof.Machine

/-- Settles O1: a command's own operands are read back one after the other, and the opcode map names
the command. -/
theorem decodeReadsBackEveryEncoding : Obligations.DecodeReadsBackEveryEncoding := by
  intro i hwf
  simpa using decode_encode_append hwf []

/-- Settles O2: every byte read belongs to the opcode or to an operand that encodes to it. -/
theorem decodedDescriptorIsItsEncoding : Obligations.DecodedDescriptorIsItsEncoding := by
  intro d i h
  obtain ⟨op, bs, ts, ops, rfl, hops, hi⟩ := decode_ok h
  obtain ⟨rfl, rfl⟩ := ofOperands_some hi
  obtain ⟨hfits, rfl⟩ := decodeOperands_ok hops
  exact ⟨(wellFormed_iff i).mpr hfits, by rw [encode, List.append_nil]⟩

/-- Settles O3: the nine worked descriptors, read by the decoder. -/
theorem workedDescriptorsDecode : Obligations.WorkedDescriptorsDecode := by
  unfold Obligations.WorkedDescriptorsDecode
  decide

/-- Settles O4: R111's ranges are the opcodes without an operand list, every opcode with one is some
command's, and without one a descriptor does not decode. -/
theorem unassignedOpcodesAreRefused : Obligations.UnassignedOpcodesAreRefused := by
  refine ⟨fun op => ⟨?noCommand, ?noRow⟩, rfl, ?refused⟩
  case noCommand =>
    rintro h i rfl
    rw [← operandTypes_eq_none_iff, operandTypes_opcode] at h
    cases h
  case noRow =>
    intro h
    by_contra hassigned
    rw [← operandTypes_eq_none_iff] at hassigned
    obtain ⟨i, hi⟩ := exists_opcode_eq hassigned
    exact h i hi
  case refused =>
    intro s op d rest hop hin
    exact step_refused hin (decode_unassigned d ((operandTypes_eq_none_iff op).mpr hop))

/-- Settles O5: each clause is one cause of R107, and a step on what does not decode is
`step_refused`. -/
theorem undecodableDescriptorsAreRefused : Obligations.UndecodableDescriptorsAreRefused := by
  refine ⟨rfl, ?cutShort, ?overLong, ?badBool, fun s d e rest hd hin => step_refused hin hd⟩
  case cutShort =>
    intro i d cut hwf henc hd hcut
    obtain ⟨op, bs, rfl⟩ := List.exists_cons_of_ne_nil hd
    obtain ⟨rfl, hops⟩ := List.cons.inj henc
    exact decode_operand_error (operandTypes_opcode i)
      (decodeOperands_of_cut ((wellFormed_iff i).mp hwf) hops hcut)
  case overLong =>
    intro i extra hwf hextra
    rw [decode_encode_append hwf, if_neg hextra]
  case badBool =>
    intro op b rest ht hfalse htrue
    refine decode_operand_error ht ?_
    simp only [decodeOperands, decodeOperand, if_neg hfalse, if_neg htrue]

end Sys2Proof.Machine
end

section
/-! SUPPORT. How an `RTP.*` command ends: on an empty slot (R149), and on a loaded one by what its
check chain yields. -/

namespace Sys2Proof.Machine

/-! ## A loaded slot -/

theorem perform_readPkt_ok {s : State} {f : Pkt → Except Status (List Operand)}
    {results : List Operand} (hv : s.pkt.valid = true) (hf : f s.pkt = .ok results) :
    perform s (s.readPkt f) = .next (s.respond (0x00#8 :: encodeOperands results)) := by
  rw [State.readPkt_loaded hv, hf]
  rfl

theorem perform_editPkt_error {s : State} {f : Pkt → Except Status Pkt} {k : Status}
    (hv : s.pkt.valid = true) (hf : f s.pkt = .error k) :
    perform s (s.editPkt f) = .next (s.respond [k.code]) := by
  rw [State.editPkt_loaded hv, hf]
  rfl

theorem perform_editPkt_ok {s : State} {f : Pkt → Except Status Pkt} {q : Pkt}
    (hv : s.pkt.valid = true) (hf : f s.pkt = .ok q) :
    perform s (s.editPkt f) = .next ((s.withPkt q).respond [0x00#8]) := by
  rw [State.editPkt_loaded hv, hf]
  rfl

/-- An edit that is one write of `PKT.BUF`, in the form of the statements. -/
theorem perform_editPkt_write {s : State} {f : Pkt → Except Status Pkt} {a : Nat} {bs : Bytes}
    (hv : s.pkt.valid = true) (hf : f s.pkt = .ok (s.pkt.write a bs)) :
    ∃ b, perform s (s.editPkt f) =
        .next (({ s with pkt := { s.pkt with buf := b } } : State).respond [0x00#8]) ∧
      Memory.patched b s.pkt.buf a bs :=
  ⟨_, perform_editPkt_ok hv hf, Memory.patched_write s.pkt.buf a bs⟩

theorem State.respond_inj {s : State} {r r' : Bytes} (h : s.respond r = s.respond r') : r = r' := by
  simpa using congrArg State.responses h

/-- An edit that answered `OK` had a packet, passed its checks and left their result. -/
theorem perform_editPkt_answered {s t : State} {f : Pkt → Except Status Pkt}
    (h : perform s (s.editPkt f) = .next t) (hok : t.responses = s.responses ++ [[0x00#8]]) :
    s.pkt.valid = true ∧ ∃ q, f s.pkt = .ok q ∧ t = (s.withPkt q).respond [0x00#8] := by
  have failed (k : Status) : t ≠ s.respond [k.code] := by
    rintro rfl
    cases k <;> simp [Status.code] at hok
  cases hv : s.pkt.valid with
  | false =>
    rw [State.editPkt_empty hv] at h
    exact absurd (Host.Outcome.next.inj h).symm (failed _)
  | true =>
    cases hf : f s.pkt with
    | error k =>
      rw [perform_editPkt_error hv hf] at h
      exact absurd (Host.Outcome.next.inj h).symm (failed k)
    | ok q =>
      rw [perform_editPkt_ok hv hf] at h
      exact ⟨rfl, q, rfl, (Host.Outcome.next.inj h).symm⟩

/-! ## An empty slot -/

theorem perform_readPkt_empty {s : State} (hv : s.pkt.valid = false)
    (f : Pkt → Except Status (List Operand)) :
    perform s (s.readPkt f) = .next (s.respond [0x07#8]) := by
  rw [State.readPkt_empty hv]
  rfl

theorem perform_editPkt_empty {s : State} (hv : s.pkt.valid = false)
    (f : Pkt → Except Status Pkt) :
    perform s (s.editPkt f) = .next (s.respond [0x07#8]) := by
  rw [State.editPkt_empty hv]
  rfl

/-- R149: without a packet, every `RTP.*` command but `RTP.NEW` and `RTP.LOAD` answers 07. -/
theorem exec_of_empty_slot {i : Instr} {s : State} (hi : needsRtpPacket i = true)
    (hv : s.pkt.valid = false) : exec i s = .next (s.respond [0x07#8]) := by
  cases i with
  | rtpStore | rtpGetP | rtpGetX | rtpGetCc | rtpGetM | rtpGetPt | rtpGetSeq | rtpGetTs
  | rtpGetSsrc | rtpGetPayload | rtpGetCsrc | rtpGetHdrExt | rtpGetGenExt | rtpGetVol
  | rtpGetOhb | rtpGetOhbLen => exact perform_readPkt_empty hv _
  | rtpSetP | rtpSetX | rtpSetCc | rtpSetM | rtpSetPt | rtpSetSeq | rtpSetTs | rtpSetSsrc
  | rtpSetCsrc | rtpSetHdrExt | rtpSetPayload | rtpSetPadding | rtpSetGenExt | rtpSetVol
  | rtpSetOhb | rtpEncGcm | rtpDecGcm => exact perform_editPkt_empty hv _
  | _ => cases hi

/-- A class of opcodes within 0x12 to 0x4D needs a packet. -/
theorem needsRtpPacket_of_opcodeIn {i : Instr} {lo hi : Nat} (h : opcodeIn i lo hi = true)
    (hlo : 0x12 ≤ lo) (hhi : hi ≤ 0x4D) : needsRtpPacket i = true := by
  rw [opcodeIn_iff] at h
  exact opcodeIn_iff.mpr (by omega)

/-! ## The reading commands -/

/-- No command of the reading class has an effect of its own: it leaves the state it found. -/
theorem Effect.eq_of_readsOnly {s u : State} {i : Instr} {results : List Operand}
    (h : Effect s i u results) (hi : readsOnly i = true) : u = s := by
  cases h with
  | read => rfl
  | rtpEdit hf | rtcpEdit hf => cases hf <;> cases hi
  | _ => cases hi

/-- Settles O17: a command fails with a status and nothing else (R343), or has its effect, and a
reading command has none. -/
theorem readingCommandsWriteNothing : Obligations.ReadingCommandsWriteNothing := by
  intro i s hi
  rcases exec_ends i s with ⟨k, hk⟩ | ⟨u, results, heff, hu⟩
  · exact ⟨[k.code], hk⟩
  · rw [heff.eq_of_readsOnly hi] at hu
    exact ⟨_, hu⟩

end Sys2Proof.Machine
end

section
/-! SUPPORT. How the packet slot is filled, and the fixed header: its eight fields, where each lies,
and what a write of one leaves of the others. -/

namespace Sys2Proof.Machine

/-! ## Filling the slot (R130, R131) -/

theorem perform_map_error {α : Type} {s : State} {x : Except Status α} {k : Status}
    {g : α → State × List Operand} (hx : x = .error k) :
    perform s (x.map g) = .next (s.respond [k.code]) := by
  rw [hx]
  rfl

/-- A command that fills the slot with `data`, in the form of the statements. -/
theorem perform_fill {s : State} {x : Except Status Pkt} {data : Bytes}
    (hx : x = .ok ((s.pkt.load data).setEkt [0x00#8])) :
    ∃ b e, perform s (x.map fun p => (s.withPkt p, [])) =
        .next (({ s with pkt := { valid := true, buf := b, len := data.length, ekt := e,
                                  ektLen := 1 } } : State).respond [0x00#8]) ∧
      Memory.patched b s.pkt.buf 0 data ∧ Memory.patched e s.pkt.ekt 0 [0x00#8] := by
  subst hx
  exact ⟨_, _, rfl, Memory.patched_write _ _ _, Memory.patched_write _ _ _⟩

theorem Pkt.new_of_size {pt : BitVec 8} {payload : Bytes} (p : Pkt) (seq : BitVec 16)
    (ts ssrc : BitVec 32) (hpt : ¬ 127 < pt.toNat) :
    p.new pt seq ts ssrc payload =
      if 1500 < 12 + payload.length then .error .sizeOverflow
      else .ok ((p.load ([0x80#8, pt] ++ beBytes 2 seq.toNat ++ beBytes 4 ts.toNat ++
        beBytes 4 ssrc.toNat ++ payload)).setEkt [0x00#8]) := by
  rw [Pkt.new, if_neg hpt, mtu_eq]

theorem Pkt.loadWire_eq (p : Pkt) (data : Bytes) :
    p.loadWire data =
      if 1500 < data.length then .error .sizeOverflow
      else if data.length < 12 then .error .invalidField
      else .ok ((p.load data).setEkt [0x00#8]) := by
  rw [Pkt.loadWire, mtu_eq]

/-- A store over which its own bytes are patched reads as before. -/
theorem Memory.patched.read_of_slice {b m : Memory} {n : Nat}
    (h : Memory.patched b m 0 (Memory.slice m 0 n)) (i : Nat) :
    Memory.read b i = Memory.read m i := by
  rw [h i]
  split
  · next hi =>
    rw [List.getD_eq_getElem _ _ (by omega), Memory.getElem_slice, Nat.zero_add, Nat.sub_zero]
  · rfl

/-! ## Octets -/

@[simp] theorem Pkt.write_octet (p : Pkt) (a : Nat) (b : Byte) : (p.write a [b]).octet a = b := by
  simp [Pkt.octet, Memory.read_write]

theorem Pkt.write_octet_of_not_mem {p : Pkt} {a i : Nat} {bs : Bytes}
    (h : i < a ∨ a + bs.length ≤ i) : (p.write a bs).octet i = p.octet i :=
  Memory.read_write_of_not_mem h

theorem getLsbD_bitAt (b : Bool) {j k : Nat} (hk : k < 8) :
    (bitAt b k).getLsbD j = (b && decide (k = j)) := by
  cases b with
  | false => exact BitVec.getLsbD_zero
  | true =>
    show (BitVec.twoPow 8 k).getLsbD j = _
    rw [BitVec.getLsbD_twoPow, decide_eq_true hk]

theorem getLsbD_bitAt_self (b : Bool) {k : Nat} (hk : k < 8) : (bitAt b k).getLsbD k = b := by
  rw [getLsbD_bitAt b hk, decide_eq_true rfl, Bool.and_true]

theorem getLsbD_bitAt_of_ne (b : Bool) {j k : Nat} (hk : k < 8) (hne : k ≠ j) :
    (bitAt b k).getLsbD j = false := by
  rw [getLsbD_bitAt b hk, decide_eq_false hne, Bool.and_false]

/-- A bit outside a mask is cleared by it. -/
theorem bitAt_and_eq_zero (b : Bool) {k : Nat} {mask : Byte} (h : bitAt true k &&& mask = 0#8) :
    bitAt b k &&& mask = 0#8 := by
  cases b with
  | false => exact BitVec.zero_and
  | true => exact h

/-- R141 to R145 rewrite an octet `o` as `(o &&& keep) ||| v`: a bit that `keep` has and `v` has not
stays. -/
theorem getLsbD_patch_kept {o keep v : Byte} {k : Nat} (hkeep : keep.getLsbD k = true)
    (hv : v.getLsbD k = false) : ((o &&& keep) ||| v).getLsbD k = o.getLsbD k := by
  rw [BitVec.getLsbD_or, BitVec.getLsbD_and, hkeep, hv, Bool.and_true, Bool.or_false]

/-- A bit that `keep` has not is the bit of `v`. -/
theorem getLsbD_patch_set {o keep v : Byte} {k : Nat} (hkeep : keep.getLsbD k = false) :
    ((o &&& keep) ||| v).getLsbD k = v.getLsbD k := by
  rw [BitVec.getLsbD_or, BitVec.getLsbD_and, hkeep, Bool.and_false, Bool.false_or]

/-- `getLsbD_patch_kept` for the bits of a mask. -/
theorem and_patch_kept {o keep v mask : Byte} (hkeep : keep &&& mask = mask)
    (hv : v &&& mask = 0#8) : ((o &&& keep) ||| v) &&& mask = o &&& mask := by
  rw [BitVec.and_comm, BitVec.and_or_distrib_left, BitVec.and_comm mask v, hv, BitVec.or_zero,
    BitVec.and_comm mask, BitVec.and_assoc, hkeep]

/-- `getLsbD_patch_set` for the bits of a mask, when `v` has no others. -/
theorem and_patch_set {o keep v mask : Byte} (hkeep : keep &&& mask = 0#8)
    (hv : v &&& mask = v) : ((o &&& keep) ||| v) &&& mask = v := by
  rw [BitVec.and_comm, BitVec.and_or_distrib_left, BitVec.and_comm mask v, hv,
    BitVec.and_comm mask, BitVec.and_assoc, hkeep, BitVec.and_zero, BitVec.zero_or]

/-- A value of `k` bits is its own low part. -/
theorem and_lowMask_of_lt {v mask : Byte} {k : Nat} (hv : v.toNat < 2 ^ k)
    (hmask : mask.toNat = 2 ^ k - 1) : v &&& mask = v := by
  apply BitVec.eq_of_toNat_eq
  rw [BitVec.toNat_and, hmask, Nat.and_two_pow_sub_one_eq_mod, Nat.mod_eq_of_lt hv]

theorem getLsbD_of_lt {v : Byte} {j k : Nat} (hv : v.toNat < 2 ^ j) (h : j ≤ k) :
    v.getLsbD k = false :=
  Nat.testBit_lt_two_pow (hv.trans_le (Nat.pow_le_pow_right (by decide) h))

/-! ## The eight fields (R80) -/

/-- The fields of the fixed header that R133 to R148 read and write. -/
inductive HdrField where
  | p | x | cc | m | pt | seq | ts | ssrc

namespace HdrField

/-- R112: the command that reads a field. -/
def getter : HdrField → Instr
  | p => .rtpGetP
  | x => .rtpGetX
  | cc => .rtpGetCc
  | m => .rtpGetM
  | pt => .rtpGetPt
  | seq => .rtpGetSeq
  | ts => .rtpGetTs
  | ssrc => .rtpGetSsrc

/-- R133 to R140: what a packet holds in a field. -/
def value (q : Pkt) : HdrField → Operand
  | p => .bool q.p
  | x => .bool q.x
  | cc => .u8 q.cc
  | m => .bool q.m
  | pt => .u8 q.pt
  | seq => .u16 q.seq
  | ts => .u32 q.ts
  | ssrc => .u32 q.ssrc

/-- R80: the first octet of a field. -/
def offset : HdrField → Nat
  | p | x | cc => 0
  | m | pt => 1
  | seq => 2
  | ts => 4
  | ssrc => 8

/-- R80: how many octets a field touches. -/
def width : HdrField → Nat
  | p | x | cc | m | pt => 1
  | seq => 2
  | ts | ssrc => 4

/-- R133 to R140: the getter of a field returns it. -/
theorem exec_getter (f : HdrField) {s : State} (hv : s.pkt.valid = true) :
    exec f.getter s = .next (s.respond (0x00#8 :: encodeOperands [f.value s.pkt])) := by
  cases f <;> exact perform_readPkt_ok hv rfl

/-- R112: the opcodes 0x20 to 0x27 are the getters of these fields. -/
theorem eq_getter_of_opcodeIn {g : Instr} (h : opcodeIn g 0x20 0x27 = true) :
    ∃ f : HdrField, g = f.getter := by
  cases g with
  | rtpGetP => exact ⟨p, rfl⟩
  | rtpGetX => exact ⟨x, rfl⟩
  | rtpGetCc => exact ⟨cc, rfl⟩
  | rtpGetM => exact ⟨m, rfl⟩
  | rtpGetPt => exact ⟨pt, rfl⟩
  | rtpGetSeq => exact ⟨seq, rfl⟩
  | rtpGetTs => exact ⟨ts, rfl⟩
  | rtpGetSsrc => exact ⟨ssrc, rfl⟩
  | _ => cases h

/-- A field is made of its octets. -/
theorem value_congr {f : HdrField} {p q : Pkt}
    (h : ∀ k < f.width, q.octet (f.offset + k) = p.octet (f.offset + k)) :
    f.value q = f.value p := by
  cases f with
  | p | x | cc | m | pt =>
    have hoctet := h 0 Nat.one_pos
    simp only [offset, Nat.add_zero] at hoctet
    simp only [value, Pkt.p, Pkt.x, Pkt.cc, Pkt.m, Pkt.pt, hoctet]
  | seq | ts | ssrc =>
    have hslice := Memory.slice_congr h
    simp only [offset, width] at hslice
    simp only [value, Pkt.seq, Pkt.ts, Pkt.ssrc, Memory.readBE, hslice]

/-- A write outside the octets of a field leaves it alone. -/
theorem value_write_of_disjoint {f : HdrField} (p : Pkt) {a : Nat} {bs : Bytes}
    (h : f.offset + f.width ≤ a ∨ a + bs.length ≤ f.offset) :
    f.value (p.write a bs) = f.value p :=
  value_congr fun _ hk => Pkt.write_octet_of_not_mem (by omega)

/-- Two fields that begin at different octets share none. -/
theorem end_le_of_offset_lt {f g : HdrField} (h : f.offset < g.offset) :
    f.offset + f.width ≤ g.offset := by
  cases f with
  | p | x | cc | m | pt => exact h
  | seq | ts | ssrc => cases g <;> simp_all [offset, width]

/-- A write of all the octets of one field leaves a field that begins at another octet alone. -/
theorem value_write_of_offset_ne {f g : HdrField} (p : Pkt) {bs : Bytes}
    (hbs : bs.length = f.width) (h : g.offset ≠ f.offset) :
    g.value (p.write f.offset bs) = g.value p := by
  refine value_write_of_disjoint p ?_
  rcases Nat.lt_or_gt_of_ne h with hlt | hgt
  · exact .inl (end_le_of_offset_lt hlt)
  · exact .inr (hbs ▸ end_le_of_offset_lt hgt)

end HdrField

/-! ## Setting one field (R141 to R148) -/

/-- `q` is `p` with the field `f` set to `v`: the other seven fields stay. -/
structure SetsField (f : HdrField) (v : Operand) (p q : Pkt) : Prop where
  valid : q.valid = p.valid
  value : f.value q = v
  others : ∀ g, g ≠ f → g.value q = g.value p

/-- An edit, whenever it succeeds on `p`, sets field `f` to `v`. -/
def EditSets (f : HdrField) (v : Operand) (p : Pkt) (edit : Pkt → Except Status Pkt) : Prop :=
  ∀ q, edit p = .ok q → SetsField f v p q

/-- A write of the octets of a field sets it, if it leaves the fields that share them. -/
theorem SetsField.of_write {f : HdrField} {v : Operand} {p : Pkt} {bs : Bytes}
    (hbs : bs.length = f.width) (hvalue : f.value (p.write f.offset bs) = v)
    (hshared : ∀ g, g ≠ f → g.offset = f.offset → g.value (p.write f.offset bs) = g.value p) :
    SetsField f v p (p.write f.offset bs) where
  valid := rfl
  value := hvalue
  others g hg := by
    by_cases h : g.offset = f.offset
    · exact hshared g hg h
    · exact HdrField.value_write_of_offset_ne p hbs h

/-- The same for an edit that is such a write and checks nothing. -/
theorem EditSets.of_sets {f : HdrField} {v : Operand} {p : Pkt} {g : Pkt → Pkt}
    (h : SetsField f v p (g p)) : EditSets f v p fun p => .ok (g p) :=
  fun _ hq => Except.ok.inj hq ▸ h

/-- Octet 0 holds P, X and CC. -/
theorem Pkt.value_write_octet0 (p : Pkt) (b : Byte) :
    HdrField.p.value (p.write 0 [b]) = .bool (b.getLsbD 5) ∧
    HdrField.x.value (p.write 0 [b]) = .bool (b.getLsbD 4) ∧
    HdrField.cc.value (p.write 0 [b]) = .u8 (b &&& 0x0F#8) := by
  simp only [HdrField.value, Pkt.p, Pkt.x, Pkt.cc, Pkt.write_octet, and_self]

/-- Octet 1 holds M and PT. -/
theorem Pkt.value_write_octet1 (p : Pkt) (b : Byte) :
    HdrField.m.value (p.write 1 [b]) = .bool (b.getLsbD 7) ∧
    HdrField.pt.value (p.write 1 [b]) = .u8 (b &&& 0x7F#8) := by
  simp only [HdrField.value, Pkt.m, Pkt.pt, Pkt.write_octet, and_self]

theorem Pkt.setP_sets (p : Pkt) (b : Bool) :
    EditSets .p (.bool b) p fun p => .ok (p.setP b) := by
  obtain ⟨hp, hx, hcc⟩ := p.value_write_octet0 ((p.octet 0 &&& 0xDF#8) ||| bitAt b 5)
  refine .of_sets (.of_write rfl (hp.trans ?_) fun g hg hshared => ?_)
  · rw [getLsbD_patch_set rfl, getLsbD_bitAt_self b (by decide)]
  cases g with
  | p => exact absurd rfl hg
  | x =>
    have hbit : (bitAt b 5).getLsbD 4 = false := getLsbD_bitAt_of_ne b (by decide) (by decide)
    exact hx.trans (congrArg _ (getLsbD_patch_kept rfl hbit))
  | cc => exact hcc.trans (congrArg _ (and_patch_kept rfl (bitAt_and_eq_zero b rfl)))
  | m | pt | seq | ts | ssrc => cases hshared

theorem Pkt.setX_sets (p : Pkt) (b : Bool) :
    EditSets .x (.bool b) p fun p => .ok (p.setX b) := by
  obtain ⟨hp, hx, hcc⟩ := p.value_write_octet0 ((p.octet 0 &&& 0xEF#8) ||| bitAt b 4)
  refine .of_sets (.of_write rfl (hx.trans ?_) fun g hg hshared => ?_)
  · rw [getLsbD_patch_set rfl, getLsbD_bitAt_self b (by decide)]
  cases g with
  | x => exact absurd rfl hg
  | p =>
    have hbit : (bitAt b 4).getLsbD 5 = false := getLsbD_bitAt_of_ne b (by decide) (by decide)
    exact hp.trans (congrArg _ (getLsbD_patch_kept rfl hbit))
  | cc => exact hcc.trans (congrArg _ (and_patch_kept rfl (bitAt_and_eq_zero b rfl)))
  | m | pt | seq | ts | ssrc => cases hshared

theorem Pkt.setM_sets (p : Pkt) (b : Bool) :
    EditSets .m (.bool b) p fun p => .ok (p.setM b) := by
  obtain ⟨hm, hpt⟩ := p.value_write_octet1 ((p.octet 1 &&& 0x7F#8) ||| bitAt b 7)
  refine .of_sets (.of_write rfl (hm.trans ?_) fun g hg hshared => ?_)
  · rw [getLsbD_patch_set rfl, getLsbD_bitAt_self b (by decide)]
  cases g with
  | m => exact absurd rfl hg
  | pt => exact hpt.trans (congrArg _ (and_patch_kept rfl (bitAt_and_eq_zero b rfl)))
  | p | x | cc | seq | ts | ssrc => cases hshared

theorem Pkt.setCc_ok {p q : Pkt} {cc : BitVec 8} (hq : p.setCc cc = .ok q) :
    cc.toNat < 2 ^ 4 ∧ q = p.write 0 [(p.octet 0 &&& 0xF0#8) ||| cc] := by
  unfold Pkt.setCc at hq
  split_ifs at hq with hmax
  cases hq
  exact ⟨by omega, rfl⟩

theorem Pkt.setPt_ok {p q : Pkt} {pt : BitVec 8} (hq : p.setPt pt = .ok q) :
    pt.toNat < 2 ^ 7 ∧ q = p.write 1 [(p.octet 1 &&& 0x80#8) ||| pt] := by
  unfold Pkt.setPt at hq
  split_ifs at hq with hmax
  cases hq
  exact ⟨by omega, rfl⟩

theorem Pkt.setCc_sets (p : Pkt) (cc : BitVec 8) :
    EditSets .cc (.u8 cc) p fun p => p.setCc cc := by
  intro q hq
  obtain ⟨hlt, rfl⟩ := Pkt.setCc_ok hq
  obtain ⟨hp, hx, hcc⟩ := p.value_write_octet0 ((p.octet 0 &&& 0xF0#8) ||| cc)
  refine .of_write rfl (hcc.trans ?_) fun g hg hshared => ?_
  · rw [and_patch_set rfl (and_lowMask_of_lt hlt rfl)]
  cases g with
  | cc => exact absurd rfl hg
  | p => exact hp.trans (congrArg _ (getLsbD_patch_kept rfl (getLsbD_of_lt hlt (by decide))))
  | x => exact hx.trans (congrArg _ (getLsbD_patch_kept rfl (getLsbD_of_lt hlt (by decide))))
  | m | pt | seq | ts | ssrc => cases hshared

theorem Pkt.setPt_sets (p : Pkt) (pt : BitVec 8) :
    EditSets .pt (.u8 pt) p fun p => p.setPt pt := by
  intro q hq
  obtain ⟨hlt, rfl⟩ := Pkt.setPt_ok hq
  obtain ⟨hm, hpt⟩ := p.value_write_octet1 ((p.octet 1 &&& 0x80#8) ||| pt)
  refine .of_write rfl (hpt.trans ?_) fun g hg hshared => ?_
  · rw [and_patch_set rfl (and_lowMask_of_lt hlt rfl)]
  cases g with
  | pt => exact absurd rfl hg
  | m => exact hm.trans (congrArg _ (getLsbD_patch_kept rfl (getLsbD_of_lt hlt (by decide))))
  | p | x | cc | seq | ts | ssrc => cases hshared

/-- What `MemRead` gives after `MemWrite` of a register of the same width. -/
theorem Memory.ofNat_readBE_write (m : Memory) (a n : Nat) {w : Nat} (v : BitVec w)
    (hw : 2 ^ w = 256 ^ n) :
    BitVec.ofNat w (Memory.readBE (Memory.write m a (beBytes n v.toNat)) a n) = v := by
  rw [Memory.readBE, Memory.slice_write_same _ _ _ _ (length_beBytes n v.toNat).symm,
    beNat_beBytes_of_lt (hw ▸ v.isLt), BitVec.ofNat_toNat, BitVec.setWidth_eq]

/-- The fields behind octet 1 share no octet with another field. -/
theorem HdrField.eq_of_offset_eq {f g : HdrField} (hf : 2 ≤ f.offset) (h : g.offset = f.offset) :
    g = f := by
  cases f with
  | p | x | cc | m | pt => simp [HdrField.offset] at hf
  | seq | ts | ssrc => cases g <;> simp_all [HdrField.offset]

theorem SetsField.of_write_behind {f : HdrField} {v : Operand} {p : Pkt} {bs : Bytes}
    (hf : 2 ≤ f.offset) (hbs : bs.length = f.width) (hvalue : f.value (p.write f.offset bs) = v) :
    SetsField f v p (p.write f.offset bs) :=
  .of_write hbs hvalue fun _ hg h => absurd (HdrField.eq_of_offset_eq hf h) hg

theorem Pkt.setSeq_sets (p : Pkt) (seq : BitVec 16) :
    EditSets .seq (.u16 seq) p fun p => .ok (p.setSeq seq) :=
  .of_sets <| .of_write_behind (by decide) rfl <|
    congrArg Operand.u16 (Memory.ofNat_readBE_write p.buf 2 2 seq rfl)

theorem Pkt.setTs_sets (p : Pkt) (ts : BitVec 32) :
    EditSets .ts (.u32 ts) p fun p => .ok (p.setTs ts) :=
  .of_sets <| .of_write_behind (by decide) rfl <|
    congrArg Operand.u32 (Memory.ofNat_readBE_write p.buf 4 4 ts rfl)

theorem Pkt.setSsrc_sets (p : Pkt) (ssrc : BitVec 32) :
    EditSets .ssrc (.u32 ssrc) p fun p => .ok (p.setSsrc ssrc) :=
  .of_sets <| .of_write_behind (by decide) rfl <|
    congrArg Operand.u32 (Memory.ofNat_readBE_write p.buf 8 4 ssrc rfl)

/-- R151: a setter that answered `OK` is followed by what it set and by the other getters' old
answers. -/
theorem EditSets.get_after_set {f : HdrField} {v : Operand} {edit : Pkt → Except Status Pkt}
    {s t : State} {gs : List Instr} (hedit : EditSets f v s.pkt edit)
    (hgs : ∀ g ∈ gs, opcodeIn g 0x20 0x27 = true ∧ g ≠ f.getter)
    (h : perform s (s.editPkt edit) = .next t) (hok : t.responses = s.responses ++ [[0x00#8]]) :
    exec f.getter t = .next (t.respond (0x00#8 :: encodeOperands [v])) ∧
      ∀ g ∈ gs, ∀ r, exec g s = .next (s.respond r) → exec g t = .next (t.respond r) := by
  obtain ⟨hv, q, hq, rfl⟩ := perform_editPkt_answered h hok
  obtain ⟨hvalid, hvalue, hothers⟩ := hedit q hq
  have hvq : ((s.withPkt q).respond [0x00#8]).pkt.valid = true := hvalid.trans hv
  refine ⟨?_, fun g hg r hr => ?_⟩
  · rw [f.exec_getter hvq, State.respond_pkt, State.withPkt_pkt, hvalue]
  · obtain ⟨hclass, hne⟩ := hgs g hg
    obtain ⟨f', rfl⟩ := HdrField.eq_getter_of_opcodeIn hclass
    rw [f'.exec_getter hv] at hr
    rw [f'.exec_getter hvq, State.respond_pkt, State.withPkt_pkt,
      hothers f' fun heq => hne (congrArg _ heq), State.respond_inj (Host.Outcome.next.inj hr)]

/-! ## The octets of an answer (R133 to R140) -/

/-- A flag's byte on the wire is its bit, moved to bit 0. -/
theorem encodeOperand_getLsbD (o : Byte) (k : Nat) :
    encodeOperand (.bool (o.getLsbD k)) = [(o >>> k) &&& 1#8] := by
  rw [encodeOperand_bool, BitVec.and_one_eq_setWidth_ofBool_getLsbD, BitVec.getLsbD_ushiftRight,
    Nat.add_zero]
  cases o.getLsbD k <;> rfl

/-- Bit 7 is all that a shift by 7 leaves (C5). -/
theorem encodeOperand_getLsbD_seven (o : Byte) :
    encodeOperand (.bool (o.getLsbD 7)) = [o >>> 7] := by
  have hlt : (o >>> 7).toNat < 2 ^ 1 := by
    rw [BitVec.toNat_ushiftRight, Nat.shiftRight_eq_div_pow]
    omega
  rw [encodeOperand_getLsbD, and_lowMask_of_lt hlt rfl]

theorem encodeOperand_readBE_two (m : Memory) (a : Nat) :
    encodeOperand (.u16 (BitVec.ofNat 16 (Memory.readBE m a 2))) = Memory.slice m a 2 :=
  beBytes_ofNat_beNat (Memory.length_slice m a 2) rfl

theorem encodeOperand_readBE_four (m : Memory) (a : Nat) :
    encodeOperand (.u32 (BitVec.ofNat 32 (Memory.readBE m a 4))) = Memory.slice m a 4 :=
  beBytes_ofNat_beNat (Memory.length_slice m a 4) rfl

theorem encodeOperands_singleton (o : Operand) : encodeOperands [o] = encodeOperand o := by
  rw [encodeOperands_cons, encodeOperands_nil, List.append_nil]

end Sys2Proof.Machine
end

section
/-! SUPPORT. The statements of spec/40_rtp_fields.md on the slot and its fixed header. -/

namespace Sys2Proof.Machine

/-- Settles O19: the checks in R130's order, then the slot is filled. -/
theorem rtpNewBuildsThePacket : Obligations.RtpNewBuildsThePacket := by
  intro pt seq ts ssrc payload s
  split_ifs with hpt hsize
  · exact perform_map_error (if_pos hpt)
  · exact perform_map_error ((s.pkt.new_of_size seq ts ssrc hpt).trans (if_pos hsize))
  · have hlen : 12 + payload.length = ([0x80#8, pt] ++ beBytes 2 seq.toNat ++
        beBytes 4 ts.toNat ++ beBytes 4 ssrc.toNat ++ payload).length := by simp; omega
    rw [hlen]
    exact perform_fill ((s.pkt.new_of_size seq ts ssrc hpt).trans (if_neg hsize))

/-- Settles O20: the checks in R131's order, then the slot is filled; what R132 returns are the
bytes that stand there already. -/
theorem rtpLoadAndStore : Obligations.RtpLoadAndStore := by
  refine ⟨fun data s => ?load, fun s => ?store⟩
  case load =>
    have hload := s.pkt.loadWire_eq data
    split_ifs at hload ⊢ with hmax hmin
    · exact perform_map_error hload
    · exact perform_map_error hload
    · exact perform_fill hload
  case store =>
    split_ifs with hv
    · exact exec_of_empty_slot rfl hv
    · have hvalid : s.pkt.valid = true := by simpa using hv
      refine ⟨perform_readPkt_ok hvalid rfl, fun hmin hmax => ?_⟩
      have hload := s.pkt.loadWire_eq (Memory.slice s.pkt.buf 0 s.pkt.len)
      rw [Memory.length_slice, if_neg (by omega), if_neg (by omega)] at hload
      obtain ⟨b, e, hexec, hb, he⟩ := perform_fill hload
      rw [Memory.length_slice, ← hvalid] at hexec
      exact ⟨b, e, hexec, hb.read_of_slice, by simpa using he 0⟩

/-- Settles O21: on a loaded slot each getter answers its field, whose encoding is made of octets of
the header. -/
theorem fixedHeaderGetters : Obligations.FixedHeaderGetters := by
  intro s
  dsimp only
  split_ifs with hv
  · intro i hi
    exact exec_of_empty_slot (needsRtpPacket_of_opcodeIn hi (by decide) (by decide)) hv
  · have answers (f : HdrField) {r : Bytes} (hr : encodeOperand (f.value s.pkt) = r) :
        exec f.getter s = .next (s.respond (0x00#8 :: r)) := by
      rw [f.exec_getter (by simpa using hv), encodeOperands_singleton, hr]
    exact ⟨answers .p (encodeOperand_getLsbD _ 5), answers .x (encodeOperand_getLsbD _ 4),
      answers .cc (encodeOperand_u8 _), answers .m (encodeOperand_getLsbD_seven _),
      answers .pt (encodeOperand_u8 _), answers .seq (encodeOperand_readBE_two _ 2),
      answers .ts (encodeOperand_readBE_four _ 4), answers .ssrc (encodeOperand_readBE_four _ 8)⟩

/-- Settles O22: on a loaded slot each setter is one write, after its range check. -/
theorem fixedHeaderSetters : Obligations.FixedHeaderSetters := by
  intro v n h w s
  dsimp only
  by_cases hv : s.pkt.valid = false
  · rw [if_pos hv]
    intro i hi
    exact exec_of_empty_slot (needsRtpPacket_of_opcodeIn hi (by decide) (by decide)) hv
  rw [if_neg hv, ← beBytes_two h, ← beBytes_four w]
  have hvalid : s.pkt.valid = true := by simpa using hv
  refine ⟨perform_editPkt_write hvalid rfl, perform_editPkt_write hvalid rfl,
    perform_editPkt_write hvalid rfl, ?cc, ?pt, perform_editPkt_write hvalid rfl,
    perform_editPkt_write hvalid rfl, perform_editPkt_write hvalid rfl⟩
  case cc =>
    split_ifs with hmax
    · exact perform_editPkt_error (f := fun p => p.setCc n) hvalid (if_pos hmax)
    · exact perform_editPkt_write hvalid (if_neg hmax)
  case pt =>
    split_ifs with hmax
    · exact perform_editPkt_error (f := fun p => p.setPt n) hvalid (if_pos hmax)
    · exact perform_editPkt_write hvalid (if_neg hmax)

/-- Settles O23: each setter sets its field and leaves the other seven. -/
theorem fixedHeaderGetAfterSet : Obligations.FixedHeaderGetAfterSet := by
  intro s t others sets
  refine ⟨fun v => ?p, fun v => ?x, fun cc => ?cc, fun v => ?m, fun pt => ?pt, fun v => ?seq,
    fun v => ?ts, fun v => ?ssrc⟩
  case p => exact (s.pkt.setP_sets v).get_after_set (by decide)
  case x => exact (s.pkt.setX_sets v).get_after_set (by decide)
  case cc => exact (s.pkt.setCc_sets cc).get_after_set (by decide)
  case m => exact (s.pkt.setM_sets v).get_after_set (by decide)
  case pt => exact (s.pkt.setPt_sets pt).get_after_set (by decide)
  case seq => exact (s.pkt.setSeq_sets v).get_after_set (by decide)
  case ts => exact (s.pkt.setTs_sets v).get_after_set (by decide)
  case ssrc => exact (s.pkt.setSsrc_sets v).get_after_set (by decide)

end Sys2Proof.Machine
end

section
/-! SUPPORT. What a section setter (R162 to R164, R182) leaves in the packet, as the section getters
read it. -/

namespace Sys2Proof.Machine

/-! ## Rewriting a packet from an offset on (R169) -/

/-- What the section setters have in common: the bytes from an offset on, then octet 0 and the new
length. -/
def Pkt.rewriteTail (p : Pkt) (a : Nat) (bs : Bytes) (v : Byte) (n : Nat) : Pkt :=
  ((p.write a bs).write 0 [v]).setLen n

theorem Pkt.setCsrc_ok {p q : Pkt} {list : Bytes} (hq : p.setCsrc list = .ok q) :
    ∃ n, list.length = 4 * n ∧ n ≤ 15 ∧
      q = p.rewriteTail 12 list ((p.octet 0 &&& 0xC0#8) ||| BitVec.ofNat 8 n) (12 + 4 * n) := by
  unfold Pkt.setCsrc at hq
  rw [ccMax_eq] at hq
  split_ifs at hq with hmod hcount
  cases hq
  exact ⟨list.length / 4, by omega, by omega, rfl⟩

theorem Pkt.setHdrExt_ok {p q : Pkt} {profile : BitVec 16} {data : Bytes}
    (hq : p.setHdrExt profile data = .ok q) :
    data.length % 4 = 0 ∧ p.extOff + 4 + data.length ≤ 1500 ∧
      q = p.rewriteTail p.extOff (beBytes 2 profile.toNat ++ beBytes 2 (data.length / 4) ++ data)
        ((p.octet 0 &&& 0xCF#8) ||| 0x10#8) (p.extOff + 4 + data.length) := by
  unfold Pkt.setHdrExt at hq
  rw [mtu_eq] at hq
  split_ifs at hq with hcsrc hmod hsize
  cases hq
  exact ⟨by omega, by omega, rfl⟩

theorem Pkt.setPayload_ok {p q : Pkt} {data : Bytes} (hq : p.setPayload data = .ok q) :
    q = p.rewriteTail p.payOff data (p.octet 0 &&& 0xDF#8) (p.payOff + data.length) := by
  unfold Pkt.setPayload at hq
  split_ifs at hq
  cases hq
  rfl

section
variable (p : Pkt) (a n : Nat) (bs : Bytes) (v : Byte)

@[simp] theorem Pkt.rewriteTail_len : (p.rewriteTail a bs v n).len = n := rfl

@[simp] theorem Pkt.rewriteTail_octet0 : (p.rewriteTail a bs v n).octet 0 = v :=
  Pkt.write_octet _ 0 v

/-- The bytes written are read back, octet 0 lying before them. -/
theorem Pkt.slice_rewriteTail_part {k m : Nat} (ha : 1 ≤ a) (h : k + m ≤ bs.length) :
    Memory.slice (p.rewriteTail a bs v n).buf (a + k) m = (bs.drop k).take m := by
  rw [Pkt.rewriteTail, Pkt.setLen_buf, Pkt.write_buf, Pkt.write_buf,
    Memory.slice_write_disjoint _ _ _ _ _ (.inr (by simp; omega)),
    Memory.slice_write_part _ _ _ _ _ h]

/-- The bytes between octet 0 and the offset stay. -/
theorem Pkt.slice_rewriteTail_before {b m : Nat} (hb : 1 ≤ b) (h : b + m ≤ a) :
    Memory.slice (p.rewriteTail a bs v n).buf b m = Memory.slice p.buf b m := by
  rw [Pkt.rewriteTail, Pkt.setLen_buf, Pkt.write_buf, Pkt.write_buf,
    Memory.slice_write_disjoint _ _ _ _ _ (.inr (by simp; omega)),
    Memory.slice_write_disjoint _ _ _ _ _ (.inl h)]

end

/-! ## The CSRC list (R162, R167) -/

theorem Pkt.getCsrc_setCsrc {p q : Pkt} {list : Bytes} (hq : p.setCsrc list = .ok q) :
    q.getCsrc = .ok list := by
  obtain ⟨n, hlen, hn, rfl⟩ := Pkt.setCsrc_ok hq
  set q := p.rewriteTail 12 list ((p.octet 0 &&& 0xC0#8) ||| BitVec.ofNat 8 n) (12 + 4 * n) with hq
  have hcount : (BitVec.ofNat 8 n).toNat = n := by simp; omega
  have hcc : q.cc = BitVec.ofNat 8 n := by
    rw [Pkt.cc, hq, Pkt.rewriteTail_octet0]
    exact and_patch_set rfl (and_lowMask_of_lt (k := 4) (by omega) rfl)
  have hoff : q.extOff = 12 + 4 * n := by rw [Pkt.extOff, hcc, hcount]
  have hgood : ¬ q.badCsrc = true := by
    rw [badCsrc_iff, hoff, hq, Pkt.rewriteTail_len]
    omega
  have hslice : q.slice 12 (4 * n) = list := by
    rw [Pkt.slice, hq, Pkt.slice_rewriteTail_part (k := 0) _ _ _ _ _ (by decide) (by omega),
      ← hlen]
    simp
  rw [Pkt.getCsrc, if_neg hgood, hoff, Nat.add_sub_cancel_left, hslice]

/-! ## The header extension (R163, R168) -/

theorem Pkt.extOff_eq_of_cc {p q : Pkt} (h : q.cc = p.cc) : q.extOff = p.extOff := by
  rw [Pkt.extOff, Pkt.extOff, h]

/-- After `RTP.SETHDREXT` the packet ends with a readable extension block, which holds the profile
and the data given. -/
theorem Pkt.setHdrExt_block {p q : Pkt} {profile : BitVec 16} {data : Bytes}
    (hq : p.setHdrExt profile data = .ok q) :
    q.x = true ∧ q.badPay = false ∧ q.profile = profile ∧ q.extData = data := by
  obtain ⟨hmod, hsize, rfl⟩ := Pkt.setHdrExt_ok hq
  set block := beBytes 2 profile.toNat ++ beBytes 2 (data.length / 4) ++ data with hblock
  set q := p.rewriteTail p.extOff block ((p.octet 0 &&& 0xCF#8) ||| 0x10#8)
    (p.extOff + 4 + data.length) with hq
  have h12 := p.le_extOff
  have hblockLen : block.length = 4 + data.length := by simp [hblock]; omega
  have hx : q.x = true := by
    rw [Pkt.x, hq, Pkt.rewriteTail_octet0, getLsbD_patch_set rfl]
    rfl
  have hoff : q.extOff = p.extOff := by
    refine Pkt.extOff_eq_of_cc ?_
    rw [Pkt.cc, hq, Pkt.rewriteTail_octet0, and_patch_kept rfl rfl, Pkt.cc]
  have read (k m : Nat) (h : k + m ≤ block.length) :
      Memory.slice q.buf (q.extOff + k) m = (block.drop k).take m := by
    rw [hoff]
    exact p.slice_rewriteTail_part _ _ _ _ (by omega) h
  have hprofile : q.profile = profile := by
    have hslice : Memory.slice q.buf q.extOff 2 = beBytes 2 profile.toNat := by
      simpa [hblock] using read 0 2 (by omega)
    rw [Pkt.profile, Memory.readBE, hslice, beNat_beBytes_of_lt (n := 2) profile.isLt,
      BitVec.ofNat_toNat, BitVec.setWidth_eq]
  have hwords : q.extWords = data.length / 4 := by
    have hslice : Memory.slice q.buf (q.extOff + 2) 2 = beBytes 2 (data.length / 4) := by
      simpa [hblock] using read 2 2 (by omega)
    rw [Pkt.extWords, Memory.readBE, hslice, beNat_beBytes_of_lt (by omega)]
  have hpay : q.payOff = q.extOff + 4 + data.length := by
    rw [Pkt.payOff, if_pos hx, hwords]
    omega
  have hgood : q.badPay = false := by
    rw [Bool.eq_false_iff, Ne, badPay_iff, hpay, hoff, hq, Pkt.rewriteTail_len]
    omega
  have hdata : q.slice (q.extOff + 4) data.length = data := by
    have hdrop : block.drop 4 = data := List.drop_left' (by simp)
    rw [Pkt.slice, read 4 data.length (by omega), hdrop, List.take_length]
  refine ⟨hx, hgood, hprofile, ?_⟩
  rw [Pkt.extData, hpay, Nat.add_sub_cancel_left, hdata]

/-! ## The payload (R164, R165) -/

/-- `RTP.SETPAYLOAD` clears P and leaves the layout before the payload. -/
theorem Pkt.setPayload_layout {p q : Pkt} {data : Bytes} (hq : p.setPayload data = .ok q) :
    q.p = false ∧ q.x = p.x ∧ q.extOff = p.extOff ∧ q.payOff = p.payOff := by
  obtain rfl := Pkt.setPayload_ok hq
  set q := p.rewriteTail p.payOff data (p.octet 0 &&& 0xDF#8) (p.payOff + data.length) with hq
  have hoctet : q.octet 0 = p.octet 0 &&& 0xDF#8 := by rw [hq, Pkt.rewriteTail_octet0]
  have hp : q.p = false := by
    rw [Pkt.p, hoctet, BitVec.getLsbD_and]
    exact Bool.and_false _
  have hx : q.x = p.x := by
    rw [Pkt.x, hoctet, BitVec.getLsbD_and]
    exact Bool.and_true _
  have hoff : q.extOff = p.extOff :=
    Pkt.extOff_eq_of_cc (by rw [Pkt.cc, hoctet, BitVec.and_assoc]; rfl)
  refine ⟨hp, hx, hoff, ?_⟩
  rw [Pkt.payOff, Pkt.payOff, hx, hoff]
  split
  · next h =>
    have h12 := p.le_extOff
    have hpay : p.payOff = p.extOff + 4 + 4 * p.extWords := if_pos h
    rw [Pkt.extWords, Pkt.extWords, Memory.readBE, hoff,
      p.slice_rewriteTail_before _ _ _ _ (by omega) (by omega), Memory.readBE]
  · rfl

theorem Pkt.getPayload_setPayload {p q : Pkt} {data : Bytes} (hq : p.setPayload data = .ok q) :
    q.getPayload = .ok data := by
  obtain ⟨hp, hx, hoff, hpay⟩ := Pkt.setPayload_layout hq
  obtain rfl := Pkt.setPayload_ok hq
  set q := p.rewriteTail p.payOff data (p.octet 0 &&& 0xDF#8) (p.payOff + data.length) with hq
  have h12 := p.le_extOff
  have hpayOff := p.extOff_le_payOff
  have hreadable : ¬ q.badExtHdr = true := by
    rw [badExtHdr_iff, hx, hoff, hq, Pkt.rewriteTail_len]
    rintro ⟨h, hshort⟩
    have hblock : p.payOff = p.extOff + 4 + 4 * p.extWords := if_pos h
    omega
  have hend : q.payEnd = (p.payOff + data.length : Nat) := by
    rw [Pkt.payEnd, Pkt.padLen, hp, hq, Pkt.rewriteTail_len]
    rfl
  have hslice : q.slice p.payOff data.length = data := by
    have hread := p.slice_rewriteTail_part p.payOff (p.payOff + data.length) data
      (p.octet 0 &&& 0xDF#8) (k := 0) (m := data.length) (by omega) (by omega)
    rw [List.drop_zero, List.take_length] at hread
    exact hread
  rw [Pkt.getPayload, if_neg hreadable, hpay, hend, Int.toNat_natCast, Nat.add_sub_cancel_left,
    hslice]
  split
  · next hempty =>
    have hzero : data.length = 0 := by omega
    rw [List.length_eq_zero_iff.mp hzero]
  · rfl

/-! ## One header-extension element (R85, R180, R182, R183) -/

/-- R85: the byte before an element holds its id in the high half and its length minus one in the low
half. -/
theorem elementHeader_toNat {id : Byte} {n : Nat} (hid : id.toNat < 16) (hn : n < 16) :
    ((id <<< 4) ||| BitVec.ofNat 8 n).toNat = id.toNat * 16 + n := by
  rw [BitVec.toNat_or, BitVec.toNat_shiftLeft, BitVec.toNat_ofNat, Nat.shiftLeft_eq,
    Nat.mod_eq_of_lt (by omega), Nat.mod_eq_of_lt (by omega), ← Nat.shiftLeft_eq,
    ← Nat.shiftLeft_add_eq_or_of_lt (i := 4) hn, Nat.shiftLeft_eq]

theorem elementHeader_id {id : Byte} {n : Nat} (hid : id.toNat < 16) (hn : n < 16) :
    ((id <<< 4) ||| BitVec.ofNat 8 n) >>> 4 = id := by
  apply BitVec.eq_of_toNat_eq
  rw [BitVec.toNat_ushiftRight, elementHeader_toNat hid hn, Nat.shiftRight_eq_div_pow]
  omega

theorem elementHeader_length {id : Byte} {n : Nat} (hid : id.toNat < 16) (hn : n < 16) :
    (((id <<< 4) ||| BitVec.ofNat 8 n) &&& 0x0F#8).toNat = n := by
  rw [BitVec.toNat_and, elementHeader_toNat hid hn,
    show (0x0F#8).toNat = 2 ^ 4 - 1 from rfl, Nat.and_two_pow_sub_one_eq_mod]
  omega

/-- R180: the scan passes over the data of an element that does not answer. -/
theorem scan_append_of_skip (want : Option (BitVec 8)) (xs ys : Bytes) :
    scan want xs.length (xs ++ ys) = scan want 0 ys := by
  induction xs with
  | nil => rfl
  | cons x xs ih => exact ih

/-- R180: padding bytes answer nothing. -/
theorem scan_zeros (want : Option (BitVec 8)) (n : Nat) : scan want 0 (zeros n) = none := by
  induction n with
  | zero => rfl
  | succ n ih => exact ih

/-- R180: an element that lies in the block answers for its id, and is passed over for any other. -/
theorem scan_element {want : Option (BitVec 8)} {id : BitVec 8} {data : Bytes} (rest : Bytes)
    (hid : 1 ≤ id.toNat ∧ id.toNat ≤ 14) (hlen : 1 ≤ data.length ∧ data.length ≤ 16) :
    scan want 0 (((id <<< 4) ||| BitVec.ofNat 8 (data.length - 1)) :: (data ++ rest)) =
      if want = none ∨ want = some id then some data else scan want 0 rest := by
  have hne0 : id ≠ 0#8 := by rintro rfl; simp at hid
  have hne15 : id ≠ 15#8 := by rintro rfl; simp at hid
  have hlenSucc : data.length - 1 + 1 = data.length := by omega
  rw [scan]
  simp only [elementHeader_id (id := id) (n := data.length - 1) (by omega) (by omega),
    elementHeader_length (id := id) (n := data.length - 1) (by omega) (by omega), hlenSucc,
    if_neg hne0, if_neg hne15, scan_append_of_skip]
  rw [if_neg (by simp), List.take_left]

/-- R182: in the block that `RTP.SETGENEXT` writes, one id is found. -/
theorem scan_oneByteElement {want id : BitVec 8} {data : Bytes}
    (hid : 1 ≤ id.toNat ∧ id.toNat ≤ 14) (hlen : 1 ≤ data.length ∧ data.length ≤ 16) :
    scan (some want) 0 (oneByteElement id data) = if want = id then some data else none := by
  rw [oneByteElement, List.cons_append, scan_element _ hid hlen, scan_zeros]
  simp

theorem Pkt.setGenExt_ok {p q : Pkt} {id : BitVec 8} {data : Bytes}
    (hq : p.setGenExt id data = .ok q) :
    (1 ≤ id.toNat ∧ id.toNat ≤ 14) ∧ (1 ≤ data.length ∧ data.length ≤ 16) ∧
      p.setHdrExt Config.profileOneByte (oneByteElement id data) = .ok q := by
  unfold Pkt.setGenExt at hq
  split_ifs at hq with hid hlen
  rw [badExtId_iff] at hid
  exact ⟨by omega, by omega, hq⟩

/-- R183 on a packet with a readable block of the one-byte form. -/
theorem Pkt.getGenExt_of_block {p : Pkt} (id : BitVec 8) (hx : p.x = true)
    (hgood : p.badPay = false) (hprofile : p.profile = Config.profileOneByte) :
    p.getGenExt id = .ok (if badExtId id = true then none else scan (some id) 0 p.extData) := by
  rw [Pkt.getGenExt, if_neg (by simp [hx]), if_neg (by simp [hgood]),
    if_neg (not_not_intro hprofile)]
  split <;> rfl

theorem Pkt.getGenExt_setGenExt {p q : Pkt} {id : BitVec 8} {data : Bytes}
    (hq : p.setGenExt id data = .ok q) (other : BitVec 8) :
    q.getGenExt other = .ok (if other = id then some data else none) := by
  obtain ⟨hid, hlen, hext⟩ := Pkt.setGenExt_ok hq
  obtain ⟨hx, hgood, hprofile, hdata⟩ := Pkt.setHdrExt_block hext
  rw [Pkt.getGenExt_of_block other hx hgood hprofile, hdata, scan_oneByteElement hid hlen]
  by_cases heq : other = id
  · subst heq
    rw [if_neg (by rw [badExtId_iff]; omega)]
  · rw [if_neg heq, ite_self]

/-! ## The statements -/

/-- R151: what a getter answers after an edit that answered `OK`. -/
theorem get_after_edit {edit : Pkt → Except Status Pkt} {get : Pkt → Except Status (List Operand)}
    {s t : State} {results : List Operand}
    (hedit : ∀ q, edit s.pkt = .ok q → s.pkt.Edited q ∧ get q = .ok results)
    (h : perform s (s.editPkt edit) = .next t) (hok : t.responses = s.responses ++ [[0x00#8]]) :
    perform t (t.readPkt get) = .next (t.respond (0x00#8 :: encodeOperands results)) := by
  obtain ⟨hv, q, hq, rfl⟩ := perform_editPkt_answered h hok
  obtain ⟨hedited, hget⟩ := hedit q hq
  exact perform_readPkt_ok (hedited.valid_eq.trans hv) hget

/-- Settles O30: each section setter leaves a packet in which its section reads as the operand. -/
theorem sectionGetAfterSet : Obligations.SectionGetAfterSet := by
  refine fun s t => ⟨fun list => ?csrc, fun profile data => ?hdrExt, fun data => ?payload⟩
  case csrc =>
    refine get_after_edit fun q hq => ⟨Pkt.edited_setCsrc hq, ?_⟩
    rw [Pkt.getCsrc_setCsrc hq]
    rfl
  case hdrExt =>
    refine get_after_edit fun q hq => ⟨Pkt.edited_setHdrExt hq, ?_⟩
    obtain ⟨hx, hgood, hprofile, hdata⟩ := Pkt.setHdrExt_block hq
    rw [if_neg (by simp [hx]), if_neg (by simp [hgood]), hprofile, hdata]
  case payload =>
    refine get_after_edit fun q hq => ⟨Pkt.edited_setPayload hq, ?_⟩
    rw [Pkt.getPayload_setPayload hq]
    rfl

/-- Settles O33: the block written holds one element, which the scan finds under its id only. -/
theorem genExtGetAfterSet : Obligations.GenExtGetAfterSet := by
  intro id other data s t h hok
  refine ⟨?found, fun hne => ?absent⟩
  case found =>
    refine get_after_edit (results := [.bool true, .bytes data])
      (fun q hq => ⟨Pkt.edited_setGenExt hq, ?_⟩) h hok
    rw [Pkt.getGenExt_setGenExt hq, if_pos rfl]
    rfl
  case absent =>
    refine get_after_edit (results := [.bool false, .bytes []])
      (fun q hq => ⟨Pkt.edited_setGenExt hq, ?_⟩) h hok
    rw [Pkt.getGenExt_setGenExt hq, if_neg hne]
    rfl

end Sys2Proof.Machine
end

section
/-! SUPPORT. The layout functions as octets of the buffer, with their ranges (R160), and what each
section command yields on a loaded slot, its checks in order and in plain arithmetic (R162 to
R168). -/

namespace Sys2Proof.Machine

/-! ## The layout functions (R160) -/

theorem Pkt.cc_toNat_le (p : Pkt) : p.cc.toNat ≤ 15 := by
  rw [Pkt.cc, BitVec.toNat_and]
  exact Nat.and_le_right

theorem Pkt.extOff_le (p : Pkt) : p.extOff ≤ 72 := by
  have hcc := p.cc_toNat_le
  rw [Pkt.extOff]
  omega

theorem Pkt.extWords_eq_octets (p : Pkt) :
    p.extWords = (p.octet (p.extOff + 2)).toNat * 256 + (p.octet (p.extOff + 3)).toNat :=
  Memory.readBE_two _ _

theorem Pkt.extWords_lt (p : Pkt) : p.extWords < 65536 := by
  rw [Pkt.extWords_eq_octets]
  omega

/-- CC = 15 and 65535 extension words give the largest offset. -/
theorem Pkt.payOff_le (p : Pkt) : p.payOff ≤ 262216 := by
  have hoff := p.extOff_le
  have hwords := p.extWords_lt
  unfold Pkt.payOff
  split <;> omega

/-! ## The setters: checks in order, then one rewriting (R162 to R164, R166) -/

theorem Pkt.setCsrc_eq (p : Pkt) {list : Bytes} (hmod : list.length % 4 = 0) :
    p.setCsrc list =
      if 15 < list.length / 4 then .error .invalidField
      else .ok (p.rewriteTail 12 list
        ((p.octet 0 &&& 0xC0#8) ||| BitVec.ofNat 8 (list.length / 4))
        (12 + 4 * (list.length / 4))) := by
  rw [Pkt.setCsrc, if_neg (not_not_intro hmod), ccMax_eq, mtu_eq]
  split
  · rfl
  · -- fifteen entries end at 72, so the size check never fires
    rw [if_neg (by omega)]
    rfl

theorem Pkt.setHdrExt_eq (p : Pkt) (profile : BitVec 16) (data : Bytes) :
    p.setHdrExt profile data =
      if p.len < p.extOff ∨ data.length % 4 ≠ 0 then .error .invalidField
      else if 1500 < p.extOff + 4 + data.length then .error .sizeOverflow
      else .ok (p.rewriteTail p.extOff
        (beBytes 2 profile.toNat ++ beBytes 2 (data.length / 4) ++ data)
        ((p.octet 0 &&& 0xCF#8) ||| 0x10#8) (p.extOff + 4 + data.length)) := by
  simp only [Pkt.setHdrExt, badCsrc_iff, mtu_eq, ite_or]
  rfl

theorem Pkt.setPayload_eq (p : Pkt) (data : Bytes) :
    p.setPayload data =
      if (p.x = true ∧ p.len < p.extOff + 4) ∨ p.len < p.payOff then .error .invalidField
      else if 1500 < p.payOff + data.length then .error .sizeOverflow
      else .ok (p.rewriteTail p.payOff data (p.octet 0 &&& 0xDF#8)
        (p.payOff + data.length)) := by
  simp only [Pkt.setPayload, badPay_iff, mtu_eq]
  rfl

theorem Pkt.setPadding_eq (p : Pkt) {m : Nat} (hm : m ≠ 0) (hr : p.len % m ≠ 0) :
    p.setPadding m =
      if 255 < m - p.len % m then .error .invalidField
      else if 1500 < p.len + (m - p.len % m) then .error .sizeOverflow
      else .ok (p.rewriteTail p.len
        (List.replicate (m - p.len % m - 1) 0x00#8 ++ [BitVec.ofNat 8 (m - p.len % m)])
        (p.octet 0 ||| 0x20#8) (p.len + (m - p.len % m))) := by
  rw [Pkt.setPadding, if_neg hm, if_neg hr, mtu_eq]
  rfl

theorem Pkt.setPadding_of_aligned {p : Pkt} {m : Nat} (hm : m ≠ 0) (hr : p.len % m = 0) :
    p.setPadding m = .ok p := by
  rw [Pkt.setPadding, if_neg hm, if_pos hr]

/-- Filling up the remainder makes a multiple. -/
theorem add_sub_mod_eq_zero (n : Nat) {m : Nat} (hm : m ≠ 0) : (n + (m - n % m)) % m = 0 := by
  have hlt : n % m < m := Nat.mod_lt n (by omega)
  rw [← Nat.mod_add_mod, Nat.add_sub_cancel' hlt.le, Nat.mod_self]

/-- R149 as the statements put it: 07 on an empty slot, and the rest of the rule on a loaded one. -/
theorem exec_empty_or_loaded {i : Instr} {s : State} {P : Prop} (hi : needsRtpPacket i = true)
    (hloaded : s.pkt.valid = true → P) :
    if s.pkt.valid = false then exec i s = .next (s.respond [0x07#8]) else P := by
  split_ifs with hv
  · exact exec_of_empty_slot hi hv
  · exact hloaded (by simpa using hv)

/-- An edit that is one rewriting of the packet's tail, in the form of the statements. -/
theorem perform_editPkt_rewriteTail {s : State} {f : Pkt → Except Status Pkt} {a n : Nat}
    {bs : Bytes} {v : Byte} (hv : s.pkt.valid = true)
    (hf : f s.pkt = .ok (s.pkt.rewriteTail a bs v n)) :
    ∃ b, perform s (s.editPkt f) =
        .next (({ s with pkt := { s.pkt with buf := b, len := n } } : State).respond [0x00#8]) ∧
      Memory.patchedHead b s.pkt.buf v a bs :=
  ⟨_, perform_editPkt_ok hv hf, Memory.patchedHead_write s.pkt.buf v a bs⟩

/-- R163 and R164: a section that may be misplaced or too long, in the form of the statements. -/
theorem perform_editPkt_section {s : State} {f : Pkt → Except Status Pkt} {bad : Prop}
    [Decidable bad] {a n : Nat} {bs : Bytes} {v : Byte} (hv : s.pkt.valid = true)
    (hf : f s.pkt = if bad then .error .invalidField
      else if 1500 < n then .error .sizeOverflow
      else .ok (s.pkt.rewriteTail a bs v n)) :
    if bad then perform s (s.editPkt f) = .next (s.respond [0x02#8])
    else if 1500 < n then perform s (s.editPkt f) = .next (s.respond [0x01#8])
    else ∃ b, perform s (s.editPkt f) =
        .next (({ s with pkt := { s.pkt with buf := b, len := n } } : State).respond [0x00#8]) ∧
      Memory.patchedHead b s.pkt.buf v a bs := by
  split_ifs at hf ⊢
  · exact perform_editPkt_error hv hf
  · exact perform_editPkt_error hv hf
  · exact perform_editPkt_rewriteTail hv hf

/-! ## The getters (R165, R167, R168) -/

/-- A getter of one byte string that fails. -/
theorem perform_readPkt_bytes_error {s : State} {get : Pkt → Except Status Bytes} {k : Status}
    (hv : s.pkt.valid = true) (hget : get s.pkt = .error k) :
    perform s (s.readPkt fun p => (get p).map fun d => [.bytes d]) =
      .next (s.respond [k.code]) := by
  rw [State.readPkt_loaded hv, hget]
  rfl

/-- A getter of one byte string that answers it. -/
theorem perform_readPkt_bytes_ok {s : State} {get : Pkt → Except Status Bytes} {data : Bytes}
    (hv : s.pkt.valid = true) (hget : get s.pkt = .ok data) :
    perform s (s.readPkt fun p => (get p).map fun d => [.bytes d]) =
      .next (s.respond (0x00#8 :: encodeOperands [.bytes data])) :=
  perform_readPkt_ok hv (by rw [hget]; rfl)

theorem Pkt.getPayload_of_end_le {p : Pkt} (hgood : ¬ p.badExtHdr = true)
    (hend : p.payEnd ≤ (p.payOff : Int)) : p.getPayload = .ok [] := by
  rw [Pkt.getPayload, if_neg hgood, if_pos hend]

/-- R165 with an end after the start: the end is then the natural number `LEN - pad_len`. -/
theorem Pkt.getPayload_of_lt_end {p : Pkt} (hgood : ¬ p.badExtHdr = true)
    (hend : ¬ p.payEnd ≤ (p.payOff : Int)) :
    p.getPayload = .ok (Memory.slice p.buf p.payOff (p.len - p.padLen - p.payOff)) := by
  have hnat : p.payEnd.toNat = p.len - p.padLen := Int.toNat_sub _ _
  rw [Pkt.getPayload, if_neg hgood, if_neg hend, hnat, Pkt.slice]

/-- R168 on a loaded slot. -/
theorem exec_rtpGetHdrExt_loaded {s : State} (hv : s.pkt.valid = true) :
    exec .rtpGetHdrExt s = perform s
      (if s.pkt.x = false then .ok (s, [.bool false, .u16 0x0000#16, .bytes []])
      else if s.pkt.badPay then .error .invalidField
      else .ok (s, [.bool true, .u16 s.pkt.profile, .bytes s.pkt.extData])) := by
  show perform s (s.readPkt _) = _
  rw [State.readPkt_loaded hv]
  split_ifs <;> rfl

/-- R168: on the wire the profile id is the block's first two octets. -/
theorem Pkt.encodeOperands_hdrExt (p : Pkt) :
    encodeOperands [.bool true, .u16 p.profile, .bytes p.extData] =
      0x01#8 :: (Memory.slice p.buf p.extOff 2 ++
        encodeOperands
          [.bytes (Memory.slice p.buf (p.extOff + 4) (p.payOff - (p.extOff + 4)))]) := by
  rw [encodeOperands_cons, encodeOperands_cons, encodeOperand_bool, Pkt.profile,
    encodeOperand_readBE_two, Pkt.extData, Pkt.slice]
  rfl

end Sys2Proof.Machine
end

section
/-! SUPPORT. The statements of spec/41_rtp_sections.md on the layout, the section setters and the
section getters. -/

namespace Sys2Proof.Machine

/-- Settles O24: the functions are read off the octets; the ranges are those of a 4-bit count and a
16-bit word count. -/
theorem layoutFunctions : Obligations.LayoutFunctions := by
  intro p
  have hwords := p.extWords_eq_octets
  refine ⟨rfl, rfl, rfl, rfl, p.le_extOff, p.extOff_le, hwords, ?payOff,
    p.le_extOff.trans p.extOff_le_payOff, p.payOff_le, rfl, rfl⟩
  case payOff =>
    rw [Pkt.payOff, hwords]
    rfl

/-- Settles O25: an empty slot and a ragged list answer alike; else the entries are counted and the
list is written. -/
theorem setCsrcWritesTheList : Obligations.SetCsrcWritesTheList := by
  intro list s
  dsimp only
  split_ifs with hbad hcount
  · rcases hbad with hv | hmod
    · exact exec_of_empty_slot rfl hv
    · cases hv : s.pkt.valid with
      | false => exact exec_of_empty_slot rfl hv
      | true => exact perform_editPkt_error (f := fun p => p.setCsrc list) hv (if_pos hmod)
  all_goals
    obtain ⟨hloaded, hmod⟩ := not_or.mp hbad
    have hv : s.pkt.valid = true := by simpa using hloaded
    have hset := s.pkt.setCsrc_eq (list := list) (by omega)
  · exact perform_editPkt_error (f := fun p => p.setCsrc list) hv (hset.trans (if_pos hcount))
  · exact perform_editPkt_rewriteTail hv (hset.trans (if_neg hcount))

/-- Settles O26: the checks in R163's order, then one rewriting from `ext_off` on. -/
theorem setHdrExtWritesTheBlock : Obligations.SetHdrExtWritesTheBlock := fun profile data s =>
  exec_empty_or_loaded rfl fun hv =>
    perform_editPkt_section (f := fun p => p.setHdrExt profile data) hv
      (s.pkt.setHdrExt_eq profile data)

/-- Settles O27: the checks in R164's order, then one rewriting from `pay_off` on. -/
theorem setPayloadWritesThePayload : Obligations.SetPayloadWritesThePayload := fun data s =>
  exec_empty_or_loaded rfl fun hv =>
    perform_editPkt_section (f := fun p => p.setPayload data) hv (s.pkt.setPayload_eq data)

/-- Settles O28: a zero multiple, an aligned packet, and else one rewriting from `LEN` on. -/
theorem setPaddingAligns : Obligations.SetPaddingAligns := by
  intro mult s
  refine exec_empty_or_loaded rfl fun hv => ?_
  by_cases hzero : mult = 0#16
  · subst hzero
    exact perform_editPkt_error (f := fun p => p.setPadding 0) hv rfl
  have hm : mult.toNat ≠ 0 := fun h => hzero (BitVec.eq_of_toNat_eq h)
  rw [if_neg hzero]
  by_cases hr : s.pkt.len % mult.toNat = 0
  · rw [if_pos hr]
    exact perform_editPkt_ok (f := fun p => p.setPadding mult.toNat) hv
      (Pkt.setPadding_of_aligned hm hr)
  rw [if_neg hr]
  have hset := s.pkt.setPadding_eq hm hr
  split_ifs at hset ⊢
  · exact perform_editPkt_error (f := fun p => p.setPadding mult.toNat) hv hset
  · exact perform_editPkt_error (f := fun p => p.setPadding mult.toNat) hv hset
  · obtain ⟨b, hexec, hb⟩ := perform_editPkt_rewriteTail
      (f := fun p => p.setPadding mult.toNat) hv hset
    exact ⟨b, hexec, add_sub_mod_eq_zero _ hm, hb⟩

/-- Settles O29: each getter's checks on a loaded slot, then the bytes of its section. -/
theorem sectionGetters : Obligations.SectionGetters := by
  intro s
  dsimp only
  by_cases hempty : s.pkt.valid = false
  · rw [if_pos hempty]
    intro i hi
    exact exec_of_empty_slot (needsRtpPacket_of_opcodeIn hi (by decide) (by decide)) hempty
  rw [if_neg hempty]
  have hv : s.pkt.valid = true := by simpa using hempty
  refine ⟨?payload, ?csrc, ?hdrExt⟩
  case payload =>
    simp only [← badExtHdr_iff]
    split_ifs with hbad hend
    · exact perform_readPkt_bytes_error (get := Pkt.getPayload) hv (if_pos hbad)
    · exact perform_readPkt_bytes_ok hv (Pkt.getPayload_of_end_le hbad hend)
    · exact perform_readPkt_bytes_ok hv (Pkt.getPayload_of_lt_end hbad hend)
  case csrc =>
    simp only [← badCsrc_iff]
    split_ifs with hbad
    · exact perform_readPkt_bytes_error (get := Pkt.getCsrc) hv (if_pos hbad)
    · exact perform_readPkt_bytes_ok (get := Pkt.getCsrc) hv (if_neg hbad)
  case hdrExt =>
    rw [exec_rtpGetHdrExt_loaded hv]
    cases hx : s.pkt.x with
    | false => rfl
    | true =>
      simp only [badPay_iff, hx, true_and, Bool.true_eq_false, if_false]
      split_ifs with hbad
      · rfl
      · rw [perform_ok, Pkt.encodeOperands_hdrExt]
        rfl

end Sys2Proof.Machine
end

section
/-! SUPPORT. What the extension scan answers (R180), and what the four commands of
spec/42_hdrext.md yield on a loaded slot, their checks in order and in plain arithmetic. -/

namespace Sys2Proof.Machine

/-! ## The scan, one byte at a time (R180) -/

/-- The header byte of an element, as the number it is. -/
theorem elementHeader_ofNat {id n : Nat} (hid : id < 16) (hn : n < 16) :
    BitVec.ofNat 8 (id * 16 + n) = (BitVec.ofNat 8 id <<< 4) ||| BitVec.ofNat 8 n := by
  have hidNat : (BitVec.ofNat 8 id).toNat = id := by simp; omega
  apply BitVec.eq_of_toNat_eq
  rw [elementHeader_toNat (by omega) hn, hidNat, BitVec.toNat_ofNat, Nat.mod_eq_of_lt (by omega)]

/-- Id 0 is a padding byte, whatever its low half. -/
theorem scan_padding (want : Option (BitVec 8)) {low : Nat} (rest : Bytes) (hlow : low < 16) :
    scan want 0 (BitVec.ofNat 8 low :: rest) = scan want 0 rest := by
  have hid : BitVec.ofNat 8 low >>> 4 = 0#8 := by
    simpa using elementHeader_id (id := 0#8) (by decide) hlow
  rw [scan]
  exact if_pos hid

/-- Id 15 ends the scan. -/
theorem scan_id_fifteen (want : Option (BitVec 8)) {low : Nat} (rest : Bytes) (hlow : low < 16) :
    scan want 0 (((15#8 <<< 4) ||| BitVec.ofNat 8 low) :: rest) = none := by
  rw [scan]
  simp only [elementHeader_id (id := 15#8) (by decide) hlow]
  rfl

/-- An element that runs past the block ends the scan. -/
theorem scan_overrun (want : Option (BitVec 8)) {id : BitVec 8} {n : Nat} {rest : Bytes}
    (hid : id.toNat < 16) (hne : id ≠ 0#8) (hn : n < 16) (hshort : rest.length < n + 1) :
    scan want 0 (((id <<< 4) ||| BitVec.ofNat 8 n) :: rest) = none := by
  rw [scan]
  simp only [elementHeader_id hid hn, elementHeader_length hid hn, if_neg hne, if_pos hshort,
    ite_self]

/-- R85: what the scan answers is an element's data, of 1 to 16 bytes. -/
theorem scan_some_length {want : Option (BitVec 8)} {skip : Nat} {d r : Bytes}
    (h : scan want skip d = some r) : 1 ≤ r.length ∧ r.length ≤ 16 := by
  induction d generalizing skip with
  | nil => cases skip <;> cases h
  | cons b d ih =>
    cases skip with
    | succ skip => exact ih h
    | zero =>
      rw [scan] at h
      split_ifs at h with hpad hend hshort hwant
      · exact ih h
      · cases h
        have hlow : (b &&& 0x0F#8).toNat ≤ 15 := by
          rw [BitVec.toNat_and]
          exact Nat.and_le_right
        rw [List.length_take]
        omega
      · exact ih h

/-! ## `RTP.SETGENEXT` (R182) -/

/-- A block that a section command may not read: announced by X, and cut short by LEN. -/
theorem x_and_badPay_iff (p : Pkt) :
    (p.x && p.badPay) = true ↔ p.x = true ∧ (p.len < p.extOff + 4 ∨ p.len < p.payOff) := by
  rw [Bool.and_eq_true, badPay_iff]
  tauto

/-- The blocks that `RTP.SETGENEXT` does not implement: the two-byte form, and a second element. -/
theorem notImplemented_block_iff (p : Pkt) :
    ((p.x && twoByteForm p.profile) = true ∨
      (p.x && p.profile == Config.profileOneByte && (scan none 0 p.extData).isSome) = true) ↔
    p.x = true ∧ (p.profile &&& 0xFFF0#16 = 0x1000#16 ∨
      p.profile = 0xBEDE#16 ∧ scan none 0 p.extData ≠ none) := by
  simp only [Bool.and_eq_true, twoByteForm, beq_iff_eq, Option.isSome_iff_ne_none,
    Config.profileOneByte]
  tauto

/-- The padding completes the element to whole words, at most five. -/
theorem length_oneByteElement {id : BitVec 8} {data : Bytes} (hlen : data.length ≤ 16) :
    (oneByteElement id data).length % 4 = 0 ∧ (oneByteElement id data).length ≤ 20 := by
  simp only [oneByteElement, List.length_append, List.length_cons, length_zeros]
  omega

/-- On the wire a small word count is one byte behind a zero. -/
theorem beBytes_two_of_lt {n : Nat} (h : n < 256) : beBytes 2 n = [0x00#8, BitVec.ofNat 8 n] := by
  simp [beBytes, Nat.div_eq_of_lt h]

/-- R163 for the block of one element, whose size always fits. -/
theorem Pkt.setHdrExt_oneByteElement (p : Pkt) {id : BitVec 8} {data : Bytes}
    (hlen : data.length ≤ 16) :
    p.setHdrExt Config.profileOneByte (oneByteElement id data) =
      if p.len < p.extOff then .error .invalidField
      else .ok (p.rewriteTail p.extOff
        ([0xBE#8, 0xDE#8, 0x00#8, BitVec.ofNat 8 ((oneByteElement id data).length / 4)] ++
          oneByteElement id data)
        ((p.octet 0 &&& 0xCF#8) ||| 0x10#8)
        (p.extOff + 4 + (oneByteElement id data).length)) := by
  obtain ⟨hmod, hmax⟩ := length_oneByteElement (id := id) hlen
  have hoff := p.extOff_le
  rw [Pkt.setHdrExt_eq, beBytes_two_of_lt (n := _ / 4) (by omega)]
  simp only [hmod, ne_eq, not_true_eq_false, or_false]
  rw [if_neg (c := 1500 < _) (by omega)]
  rfl

theorem Pkt.setGenExt_eq (p : Pkt) (id : BitVec 8) (data : Bytes) :
    p.setGenExt id data =
      if id.toNat < 1 ∨ 14 < id.toNat ∨ data.length < 1 ∨ 16 < data.length then
        .error .invalidField
      else if p.x = true ∧ (p.len < p.extOff + 4 ∨ p.len < p.payOff) then .error .invalidField
      else if p.x = true ∧ (p.profile &&& 0xFFF0#16 = 0x1000#16 ∨
          p.profile = 0xBEDE#16 ∧ scan none 0 p.extData ≠ none) then .error .notImplemented
      else if p.len < p.extOff then .error .invalidField
      else .ok (p.rewriteTail p.extOff
        ([0xBE#8, 0xDE#8, 0x00#8, BitVec.ofNat 8 ((oneByteElement id data).length / 4)] ++
          oneByteElement id data)
        ((p.octet 0 &&& 0xCF#8) ||| 0x10#8)
        (p.extOff + 4 + (oneByteElement id data).length)) := by
  have hoperands : (badExtId id = true ∨ data.length < 1 ∨ 16 < data.length) ↔
      (id.toNat < 1 ∨ 14 < id.toNat ∨ data.length < 1 ∨ 16 < data.length) := by
    rw [badExtId_iff, or_assoc]
  simp only [Pkt.setGenExt, ← hoperands, ← x_and_badPay_iff, ← notImplemented_block_iff]
  by_cases hlen : data.length ≤ 16
  · rw [Pkt.setHdrExt_oneByteElement p hlen]
    simp only [ite_or]
  · have hlong : data.length < 1 ∨ 16 < data.length := by omega
    rw [if_pos hlong, if_pos (Or.inr hlong), ite_self]

theorem exec_rtpSetGenExt_error {s : State} {id : BitVec 8} {data : Bytes} {k : Status}
    (hv : s.pkt.valid = true) (hset : s.pkt.setGenExt id data = .error k) :
    exec (.rtpSetGenExt id data) s = .next (s.respond [k.code]) :=
  perform_editPkt_error (f := fun p => p.setGenExt id data) hv hset

/-- An element that is written, in the form of the statements. -/
theorem exec_rtpSetGenExt_rewriteTail {s : State} {id : BitVec 8} {data bs : Bytes} {a n : Nat}
    {v : Byte} (hv : s.pkt.valid = true)
    (hset : s.pkt.setGenExt id data = .ok (s.pkt.rewriteTail a bs v n)) :
    ∃ b, exec (.rtpSetGenExt id data) s =
        .next (({ s with pkt := { s.pkt with buf := b, len := n } } : State).respond [0x00#8]) ∧
      Memory.patchedHead b s.pkt.buf v a bs :=
  perform_editPkt_rewriteTail (f := fun p => p.setGenExt id data) hv hset

/-! ## `RTP.GETGENEXT` (R183) -/

/-- The checks of R183: a block that is cut short fails, and no block, another profile or an id that
no element has finds nothing. -/
theorem Pkt.getGenExt_eq (p : Pkt) (id : BitVec 8) :
    p.getGenExt id =
      if p.x = true ∧ (p.len < p.extOff + 4 ∨ p.len < p.payOff) then .error .invalidField
      else if p.x = false ∨ p.profile ≠ 0xBEDE#16 ∨ id.toNat < 1 ∨ 14 < id.toNat then .ok none
      else .ok (scan (some id) 0 p.extData) := by
  simp only [Pkt.getGenExt, ← x_and_badPay_iff, ← badExtId_iff, ite_or]
  cases p.x with
  | false => rfl
  | true => rfl

section
variable {s : State} {id : BitVec 8}

theorem exec_rtpGetGenExt_error {k : Status} (hv : s.pkt.valid = true)
    (hget : s.pkt.getGenExt id = .error k) :
    exec (.rtpGetGenExt id) s = .next (s.respond [k.code]) := by
  show perform s (s.readPkt _) = _
  rw [State.readPkt_loaded hv, hget]
  rfl

theorem exec_rtpGetGenExt_absent (hv : s.pkt.valid = true)
    (hget : s.pkt.getGenExt id = .ok none) :
    exec (.rtpGetGenExt id) s = .next (s.respond [0x00#8, 0x00#8, 0x00#8, 0x00#8]) :=
  perform_readPkt_ok (results := [.bool false, .bytes []]) hv (by rw [hget]; rfl)

theorem exec_rtpGetGenExt_found {r : Bytes} (hv : s.pkt.valid = true)
    (hget : s.pkt.getGenExt id = .ok (some r)) :
    exec (.rtpGetGenExt id) s =
      .next (s.respond ([0x00#8, 0x01#8] ++ encodeOperands [.bytes r])) :=
  perform_readPkt_ok (results := [.bool true, .bytes r]) hv (by rw [hget]; rfl)

end

/-! ## The level byte (R87) -/

/-- R185: a level within the range needs no more than the low seven bits. -/
theorem volumeByte_eq {dbov : Int} (vad : Bool) (hmin : -127 ≤ dbov) (hmax : dbov ≤ 0) :
    volumeByte vad dbov = (if vad then 0x80#8 else 0x00#8) ||| BitVec.ofNat 8 dbov.natAbs := by
  have hneg : -dbov = (dbov.natAbs : Int) := by omega
  rw [volumeByte, hneg, BitVec.ofInt_natCast,
    and_lowMask_of_lt (k := 7) (by rw [BitVec.toNat_ofNat]; omega) rfl]

/-- R186 reads from the level byte what R185 put there. -/
theorem volumeOf_volumeByte {dbov : Int} (vad : Bool) (hmin : -127 ≤ dbov) (hmax : dbov ≤ 0) :
    volumeOf (some [volumeByte vad dbov]) = [.bool true, .bool vad, .i8 dbov] := by
  set level := BitVec.ofNat 8 dbov.natAbs with hlevel
  have hnat : level.toNat = dbov.natAbs := by rw [hlevel, BitVec.toNat_ofNat]; omega
  have hbyte : volumeByte vad dbov = ((if vad then 0xFF#8 else 0x00#8) &&& 0x80#8) ||| level := by
    rw [volumeByte_eq vad hmin hmax]
    cases vad <;> rfl
  have hvad : (volumeByte vad dbov).getLsbD 7 = vad := by
    have hbit : level.getLsbD 7 = false := getLsbD_of_lt (j := 7) (by omega) le_rfl
    rw [hbyte, BitVec.getLsbD_or, hbit, Bool.or_false]
    cases vad <;> rfl
  have hlow : volumeByte vad dbov &&& 0x7F#8 = level := by
    rw [hbyte]
    exact and_patch_set rfl (and_lowMask_of_lt (k := 7) (by omega) rfl)
  have hneg : -(dbov.natAbs : Int) = dbov := by omega
  rw [volumeOf, hvad, hlow, hnat, hneg]

theorem encodeOperand_i8 (v : Int) : encodeOperand (.i8 v) = [BitVec.ofInt 8 v] := rfl

/-- The level on the wire: bit 7, and the low seven bits negated modulo 256. -/
theorem encodeOperands_volumeOf_singleton (b : Byte) :
    encodeOperands (volumeOf (some [b])) = [0x01#8, b >>> 7, 0#8 - (b &&& 0x7F#8)] := by
  have hlevel : BitVec.ofInt 8 (-((b &&& 0x7F#8).toNat : Int)) = 0#8 - (b &&& 0x7F#8) := by
    rw [BitVec.ofInt_neg, BitVec.ofInt_natCast, BitVec.ofNat_toNat, BitVec.setWidth_eq,
      BitVec.zero_sub]
  rw [volumeOf, encodeOperands_cons, encodeOperands_cons, encodeOperands_singleton,
    encodeOperand_getLsbD_seven, encodeOperand_i8, hlevel]
  rfl

/-- Anything but one byte is no level. -/
theorem volumeOf_of_not_singleton {r : Option Bytes} (h : ∀ b, r ≠ some [b]) :
    volumeOf r = [.bool false, .bool false, .i8 0] := by
  unfold volumeOf
  split
  · next b => exact absurd rfl (h b)
  · rfl

/-! ## `RTP.SETVOL` and `RTP.GETVOL` (R184 to R186) -/

/-- R184: with the 14 slots of the extension map, `VOL_ID` is an id of the one-byte form. -/
theorem Ses.volId_range {e : Ses} {id : BitVec 8} (hmap : e.extMap.length = 14)
    (hid : e.volId = some id) : 1 ≤ id.toNat ∧ id.toNat ≤ 14 := by
  obtain ⟨k, hfind, rfl⟩ := Option.map_eq_some_iff.mp hid
  obtain ⟨hk, -⟩ := List.findIdx?_eq_some_iff_getElem.mp hfind
  rw [BitVec.toNat_ofNat]
  omega

theorem Pkt.setVol_of_range {p : Pkt} {id : BitVec 8} {dbov : Int} (vad : Bool)
    (hmin : -127 ≤ dbov) (hmax : dbov ≤ 0) :
    p.setVol (some id) vad dbov = p.setGenExt id [volumeByte vad dbov] :=
  if_neg (by omega)

theorem Pkt.setVol_ok {p q : Pkt} {volId : Option (BitVec 8)} {vad : Bool} {dbov : Int}
    (hq : p.setVol volId vad dbov = .ok q) :
    -127 ≤ dbov ∧ dbov ≤ 0 ∧
      ∃ id, volId = some id ∧ p.setGenExt id [volumeByte vad dbov] = .ok q := by
  unfold Pkt.setVol at hq
  split_ifs at hq with hrange
  cases volId with
  | none => cases hq
  | some id => exact ⟨by omega, by omega, id, rfl, hq⟩

/-- R182 for one byte on a packet without an extension block. -/
theorem Pkt.setGenExt_byte_of_no_block {p : Pkt} {id : BitVec 8} (v : Byte) (hx : p.x = false)
    (hid : 1 ≤ id.toNat ∧ id.toNat ≤ 14) :
    p.setGenExt id [v] =
      if p.len < p.extOff then .error .invalidField
      else .ok (p.rewriteTail p.extOff
        [0xBE#8, 0xDE#8, 0x00#8, 0x01#8, id <<< 4, v, 0x00#8, 0x00#8]
        ((p.octet 0 &&& 0xCF#8) ||| 0x10#8) (p.extOff + 8)) := by
  have helement : oneByteElement id [v] = [id <<< 4, v, 0x00#8, 0x00#8] := by
    simp [oneByteElement, zeros, List.replicate]
  have hoperands : ¬ (id.toNat < 1 ∨ 14 < id.toNat ∨ [v].length < 1 ∨ 16 < [v].length) := by
    rw [List.length_singleton]
    omega
  rw [Pkt.setGenExt_eq, helement, if_neg hoperands, if_neg (by simp [hx]), if_neg (by simp [hx])]
  simp only [List.length_cons, List.length_nil, Nat.reduceAdd, Nat.reduceDiv, Nat.add_assoc,
    List.cons_append, List.nil_append]

section
variable {s : State} {id : BitVec 8}

/-- R185 past its own checks is R182 for the level byte. -/
theorem exec_rtpSetVol_of_volId {dbov : Int} (hv : s.pkt.valid = true)
    (hid : s.ses.volId = some id) (vad : Bool) (hmin : -127 ≤ dbov) (hmax : dbov ≤ 0) :
    exec (.rtpSetVol vad dbov) s = exec (.rtpSetGenExt id [volumeByte vad dbov]) s := by
  show perform s (s.editPkt _) = perform s (s.editPkt _)
  rw [State.editPkt_loaded hv, State.editPkt_loaded hv, hid, Pkt.setVol_of_range vad hmin hmax]

theorem exec_rtpGetVol_unmapped (hv : s.pkt.valid = true) (hid : s.ses.volId = none) :
    exec .rtpGetVol s = .next (s.respond [0x00#8, 0x00#8, 0x00#8, 0x00#8]) :=
  perform_readPkt_ok (results := [.bool false, .bool false, .i8 0]) hv (by rw [hid])

/-- R186 under a mapped id reads the element of R183 as a level. -/
theorem exec_rtpGetVol_of_volId (hid : s.ses.volId = some id) :
    exec .rtpGetVol s = perform s (s.readPkt fun p => (p.getGenExt id).map volumeOf) := by
  show execRtpGetVol s = _
  rw [execRtpGetVol, hid]

theorem exec_rtpGetVol_error {k : Status} (hv : s.pkt.valid = true)
    (hid : s.ses.volId = some id) (hget : s.pkt.getGenExt id = .error k) :
    exec .rtpGetVol s = .next (s.respond [k.code]) := by
  rw [exec_rtpGetVol_of_volId hid, State.readPkt_loaded hv, hget]
  rfl

theorem exec_rtpGetVol_mapped {r : Option Bytes} (hv : s.pkt.valid = true)
    (hid : s.ses.volId = some id) (hget : s.pkt.getGenExt id = .ok r) :
    exec .rtpGetVol s = .next (s.respond (0x00#8 :: encodeOperands (volumeOf r))) := by
  rw [exec_rtpGetVol_of_volId hid]
  exact perform_readPkt_ok hv (by rw [hget]; rfl)

theorem exec_rtpGetVol_not_found {r : Option Bytes} (hv : s.pkt.valid = true)
    (hid : s.ses.volId = some id) (hget : s.pkt.getGenExt id = .ok r) (hr : ∀ b, r ≠ some [b]) :
    exec .rtpGetVol s = .next (s.respond [0x00#8, 0x00#8, 0x00#8, 0x00#8]) := by
  rw [exec_rtpGetVol_mapped hv hid hget, volumeOf_of_not_singleton hr]
  rfl

end

end Sys2Proof.Machine
end

section
/-! SUPPORT. The statements of spec/42_hdrext.md on extension elements and the audio level. -/

namespace Sys2Proof.Machine

/-- Settles O31: the checks in R182's order, then one rewriting from `ext_off` on. -/
theorem setGenExtWritesOneElement : Obligations.SetGenExtWritesOneElement := by
  intro id data s
  refine exec_empty_or_loaded rfl fun hv => ?_
  have hset := s.pkt.setGenExt_eq id data
  split_ifs at hset ⊢
  · exact exec_rtpSetGenExt_error hv hset
  · exact exec_rtpSetGenExt_error hv hset
  · exact exec_rtpSetGenExt_error hv hset
  · exact exec_rtpSetGenExt_error hv hset
  · exact exec_rtpSetGenExt_rewriteTail hv hset

/-- Settles O32: the checks in R183's order, then the scan; the scan's laws one byte at a time. -/
theorem getGenExtScansTheBlock : Obligations.GetGenExtScansTheBlock := by
  refine ⟨fun id s => ?command, fun want id len low data rest hlow hmin hmax hlen => ?laws, ?worked⟩
  case command =>
    refine exec_empty_or_loaded rfl fun hv => ?_
    have hget := s.pkt.getGenExt_eq id
    cases hx : s.pkt.x with
    | false =>
      simp only [hx, Bool.false_eq_true, false_and, true_or, if_true, if_false] at hget
      exact exec_rtpGetGenExt_absent hv hget
    | true =>
      simp only [hx, Bool.true_eq_false, true_and, false_or, if_false] at hget ⊢
      split_ifs at hget ⊢
      · exact exec_rtpGetGenExt_error hv hget
      · exact exec_rtpGetGenExt_absent hv hget
      · cases hscan : scan (some id) 0 s.pkt.extData with
        | none => exact exec_rtpGetGenExt_absent hv (hscan ▸ hget)
        | some r =>
          obtain ⟨hpos, hle⟩ := scan_some_length hscan
          exact ⟨hpos, hle, exec_rtpGetGenExt_found hv (hscan ▸ hget)⟩
  case laws =>
    have hidNat : (BitVec.ofNat 8 id).toNat = id := by simp; omega
    have hne : BitVec.ofNat 8 id ≠ 0#8 := fun h => by
      have hzero := congrArg BitVec.toNat h
      simp at hzero
      omega
    rw [elementHeader_ofNat (id := id) (by omega) hlen, elementHeader_ofNat (by decide) hlow]
    refine ⟨rfl, scan_padding want rest hlow, scan_id_fifteen want rest hlow,
      scan_overrun want (by omega) hne hlen, fun hdata => ?_⟩
    have helement := scan_element (want := want) (id := BitVec.ofNat 8 id) (data := data) rest
      (by omega) (by omega)
    rwa [hdata, Nat.add_sub_cancel] at helement
  case worked => decide

/-- Settles O34: past its own checks the command is `RTP.SETGENEXT` of the level byte. -/
theorem setVolStoresTheLevel : Obligations.SetVolStoresTheLevel := by
  intro vad dbov s hmap
  refine exec_empty_or_loaded rfl fun hv => ?_
  by_cases hrange : dbov < -127 ∨ 0 < dbov
  · rw [if_pos hrange]
    exact perform_editPkt_error (f := fun p => p.setVol s.ses.volId vad dbov) hv (if_pos hrange)
  rw [if_neg hrange]
  cases hvol : s.ses.volId with
  | none =>
    refine perform_editPkt_error (k := .invalidField)
      (f := fun p => p.setVol s.ses.volId vad dbov) hv ?_
    rw [hvol]
    exact if_neg hrange
  | some id =>
    have hmin : -127 ≤ dbov := by omega
    have hmax : dbov ≤ 0 := by omega
    have hexec := exec_rtpSetVol_of_volId hv hvol vad hmin hmax
    dsimp only
    rw [← volumeByte_eq vad hmin hmax]
    refine ⟨hexec, fun hx => ?_⟩
    rw [hexec]
    have hset := Pkt.setGenExt_byte_of_no_block (volumeByte vad dbov) hx
      (Ses.volId_range hmap hvol)
    split_ifs at hset ⊢
    · exact exec_rtpSetGenExt_error hv hset
    · exact exec_rtpSetGenExt_rewriteTail hv hset

/-- Settles O35: the answer of R183's scan read as a level, and the level byte read back. -/
theorem getVolReadsTheLevel : Obligations.GetVolReadsTheLevel := by
  refine ⟨fun s => ?answer, fun vad dbov s t h hok => ?stored⟩
  case answer =>
    refine exec_empty_or_loaded rfl fun hv => ?_
    cases hvol : s.ses.volId with
    | none => exact exec_rtpGetVol_unmapped hv hvol
    | some id =>
      dsimp only
      have hget := s.pkt.getGenExt_eq id
      split_ifs at hget ⊢
      · exact exec_rtpGetVol_error hv hvol hget
      · exact exec_rtpGetVol_not_found hv hvol hget (by simp)
      · split
        · next b hscan =>
          rw [exec_rtpGetVol_mapped hv hvol hget, hscan, encodeOperands_volumeOf_singleton]
        · next hother => exact exec_rtpGetVol_not_found hv hvol hget hother
  case stored =>
    obtain ⟨hv, q, hq, rfl⟩ := perform_editPkt_answered h hok
    obtain ⟨hmin, hmax, id, hvol, hset⟩ := Pkt.setVol_ok hq
    have hget : q.getGenExt id = .ok (some [volumeByte vad dbov]) := by
      rw [Pkt.getGenExt_setGenExt hset, if_pos rfl]
    have hvalid : q.valid = true := (Pkt.edited_setGenExt hset).valid_eq.trans hv
    rw [← volumeOf_volumeByte vad hmin hmax]
    exact exec_rtpGetVol_mapped (s := (s.withPkt q).respond [0x00#8]) hvalid hvol hget

end Sys2Proof.Machine
end

section
/-! SUPPORT. The original header block: appending bytes to the packet, the block as `RTP.SETOHB`
writes it (R92, R93, R201) and as `RTP.GETOHBLEN` and `RTP.GETOHB` read it (R202, R203). -/

namespace Sys2Proof.Machine

/-! ## Appending to the packet -/

/-- The packet with `bs` after its last byte. -/
def Pkt.append (p : Pkt) (bs : Bytes) : Pkt := (p.write p.len bs).setLen (p.len + bs.length)

/-- An edit that only appends, in the form of the statements. -/
theorem perform_editPkt_append {s : State} {f : Pkt → Except Status Pkt} {bs : Bytes}
    (hv : s.pkt.valid = true) (hf : f s.pkt = .ok (s.pkt.append bs)) :
    ∃ b, perform s (s.editPkt f) =
        .next (({ s with pkt := { s.pkt with buf := b, len := s.pkt.len + bs.length } } :
          State).respond [0x00#8]) ∧
      Memory.patched b s.pkt.buf s.pkt.len bs :=
  ⟨_, perform_editPkt_ok hv hf, Memory.patched_write s.pkt.buf s.pkt.len bs⟩

theorem HdrField.end_le_twelve (f : HdrField) : f.offset + f.width ≤ 12 := by
  cases f <;> decide

section
variable (p : Pkt) (bs : Bytes)

@[simp] theorem Pkt.append_len : (p.append bs).len = p.len + bs.length := rfl

theorem Pkt.append_octet_of_lt {i : Nat} (h : i < p.len) :
    (p.append bs).octet i = p.octet i :=
  Pkt.write_octet_of_not_mem (.inl h)

/-- A part of the appended bytes, found from the end of the packet by what stands behind it. -/
theorem Pkt.slice_append_part {pre part post : Bytes} {n : Nat}
    (hbs : bs = pre ++ part ++ post) (hn : n = part.length + post.length) :
    Memory.slice (p.append bs).buf ((p.append bs).len - n) part.length = part := by
  have hstart : (p.append bs).len - n = p.len + pre.length := by
    simp only [Pkt.append_len, hbs, List.length_append]
    omega
  rw [hstart, Pkt.append, Pkt.setLen_buf, Pkt.write_buf,
    Memory.slice_write_part _ _ _ _ _ (by simp [hbs]), hbs]
  simp

/-- Appending leaves the fields of the fixed header. -/
theorem Pkt.append_field (f : HdrField) (h12 : 12 ≤ p.len) :
    f.value (p.append bs) = f.value p :=
  HdrField.value_congr fun _ _ => p.append_octet_of_lt bs (by have := f.end_le_twelve; omega)

end

/-- `CHK_PAY` passed, in plain arithmetic (R161). -/
theorem Pkt.badPay_eq_false_iff (p : Pkt) :
    p.badPay = false ↔ (p.x = true → p.extOff + 4 ≤ p.len) ∧ p.payOff ≤ p.len := by
  rw [← Bool.not_eq_true, badPay_iff, not_or, not_and, not_lt, not_lt]

/-- Appending to a packet that passes `CHK_PAY` leaves its layout. -/
theorem Pkt.append_layout {p : Pkt} (bs : Bytes) (hgood : p.badPay = false) :
    (p.append bs).badPay = false ∧ (p.append bs).payOff = p.payOff := by
  obtain ⟨hblock, hend⟩ := p.badPay_eq_false_iff.mp hgood
  have h12 := p.le_extOff
  have hext := p.extOff_le_payOff
  have hx : (p.append bs).x = p.x := Operand.bool.inj (p.append_field bs .x (by omega))
  have hoff : (p.append bs).extOff = p.extOff :=
    Pkt.extOff_eq_of_cc (Operand.u8.inj (p.append_field bs .cc (by omega)))
  have hpay : (p.append bs).payOff = p.payOff := by
    rw [Pkt.payOff, Pkt.payOff, hx, hoff]
    split
    · next h =>
      have hfits := hblock h
      rw [Pkt.extWords_eq_octets, Pkt.extWords_eq_octets, hoff,
        p.append_octet_of_lt bs (by omega), p.append_octet_of_lt bs (by omega)]
    · rfl
  refine ⟨?_, hpay⟩
  rw [Pkt.badPay_eq_false_iff, hx, hoff, hpay, Pkt.append_len]
  exact ⟨fun h => (hblock h).trans (Nat.le_add_right _ _), hend.trans (Nat.le_add_right _ _)⟩

/-! ## Bits of the config byte (R93) -/

/-- Masking one bit. -/
theorem and_bitAt (c : Byte) {k : Nat} (hk : k < 8) :
    c &&& bitAt true k = bitAt (c.getLsbD k) k := by
  apply BitVec.eq_of_getLsbD_eq
  intro j _
  rw [BitVec.getLsbD_and, getLsbD_bitAt _ hk, getLsbD_bitAt _ hk]
  by_cases h : k = j
  · simp [h]
  · simp [h]

theorem and_bitAt_eq_iff (c : Byte) {k : Nat} (hk : k < 8) :
    c &&& bitAt true k = bitAt true k ↔ c.getLsbD k = true := by
  rw [and_bitAt c hk]
  refine ⟨fun h => ?_, fun h => by rw [h]⟩
  rw [← getLsbD_bitAt_self (c.getLsbD k) hk, h, getLsbD_bitAt_self true hk]

/-- The two low bits say which fields the block holds. -/
theorem and_three_eq (c : Byte) :
    c &&& 0x03#8 = bitAt (c.getLsbD 0) 0 ||| bitAt (c.getLsbD 1) 1 := by
  rw [← and_bitAt c (by decide), ← and_bitAt c (by decide), ← BitVec.and_or_distrib_left]
  rfl

/-- R93: which bits the config byte of R201 has. -/
theorem Pkt.ohbConfig_bits (p : Pkt) (pt : BitVec 8) (seq : BitVec 16) (m : Bool) :
    (p.ohbConfig pt seq m).getLsbD 0 = (seq != p.seq) ∧
    (p.ohbConfig pt seq m).getLsbD 1 = (pt != p.pt) ∧
    (p.ohbConfig pt seq m).getLsbD 2 = (m != p.m) ∧
    (p.ohbConfig pt seq m).getLsbD 3 = (m != p.m && m) := by
  simp only [Pkt.ohbConfig, BitVec.getLsbD_or, getLsbD_bitAt, Nat.reduceLT]
  simp

theorem bitAt_bne {α : Type} [DecidableEq α] (a b : α) (k : Nat) :
    bitAt (a != b) k = if a ≠ b then 1#8 <<< k else 0#8 := by
  simp [bitAt]

/-- R93: bit 2 says that M differs, and bit 3 is then the original M. -/
theorem bitAt_marker (m m' : Bool) :
    bitAt (m != m') 2 ||| bitAt (m != m' && m) 3 =
      if m ≠ m' then (if m = true then 0x0C#8 else 0x04#8) else 0#8 := by
  cases m <;> cases m' <;> rfl

theorem Pkt.ohbConfig_eq (p : Pkt) (pt : BitVec 8) (seq : BitVec 16) (m : Bool) :
    p.ohbConfig pt seq m =
      (if seq ≠ p.seq then 0x01#8 else 0#8) ||| (if pt ≠ p.pt then 0x02#8 else 0#8) |||
        (if m ≠ p.m then (if m = true then 0x0C#8 else 0x04#8) else 0#8) := by
  rw [Pkt.ohbConfig, BitVec.or_assoc, bitAt_marker, bitAt_bne, bitAt_bne]
  rfl

/-! ## `RTP.SETOHB` (R201) -/

theorem Pkt.ohbBlock_eq (p : Pkt) (pt : BitVec 8) (seq : BitVec 16) (m : Bool) :
    p.ohbBlock pt seq m =
      (if pt ≠ p.pt then [pt] else []) ++
        (if seq ≠ p.seq then [seq.extractLsb' 8 8, seq.extractLsb' 0 8] else []) ++
        [p.ohbConfig pt seq m] := by
  rw [Pkt.ohbBlock, beBytes_two]
  simp only [bne_iff_ne]

theorem Pkt.setOhb_eq (p : Pkt) (pt : BitVec 8) (seq : BitVec 16) (m : Bool) :
    p.setOhb pt seq m =
      if 127 < pt.toNat then .error .invalidField
      else if 1500 < p.len + (p.ohbBlock pt seq m).length then .error .sizeOverflow
      else .ok (p.append (p.ohbBlock pt seq m)) := by
  rw [Pkt.setOhb, mtu_eq]
  rfl

theorem Pkt.setOhb_append {p q : Pkt} {pt : BitVec 8} {seq : BitVec 16} {m : Bool}
    (hq : p.setOhb pt seq m = .ok q) :
    pt.toNat < 2 ^ 7 ∧ q = p.append (p.ohbBlock pt seq m) := by
  rw [Pkt.setOhb_eq] at hq
  split_ifs at hq with hpt hsize
  exact ⟨by omega, (Except.ok.inj hq).symm⟩

/-! ## `RTP.GETOHBLEN` and `RTP.GETOHB` (R202, R203) -/

theorem ohbLength_eq (c : Byte) :
    ohbLength c =
      1 + (if c &&& 0x01#8 = 0x01#8 then 2 else 0) + (if c &&& 0x02#8 = 0x02#8 then 1 else 0) := by
  have hseq : c &&& 0x01#8 = 0x01#8 ↔ c.getLsbD 0 = true :=
    and_bitAt_eq_iff c (k := 0) (by decide)
  have hpt : c &&& 0x02#8 = 0x02#8 ↔ c.getLsbD 1 = true :=
    and_bitAt_eq_iff c (k := 1) (by decide)
  simp only [hseq, hpt, ohbLength]

/-- R203: where the original SEQ stands, in the block or in the header. -/
def Pkt.ohbSeqOff (p : Pkt) : Nat := if p.ohbLast.getLsbD 0 then p.len - 3 else 2

/-- R203: where the original PT stands, before SEQ in the block, or in the header. -/
def Pkt.ohbPtOff (p : Pkt) : Nat :=
  if p.ohbLast.getLsbD 1 then (if p.ohbLast.getLsbD 0 then p.len - 4 else p.len - 2) else 1

/-- R203: the original M. -/
def Pkt.ohbM (p : Pkt) : Bool :=
  if p.ohbLast.getLsbD 2 then p.ohbLast.getLsbD 3 else p.m

/-- R203 in one form for the four layouts of the block: PT and SEQ, each from its place. -/
theorem Pkt.getOhb_eq (p : Pkt) :
    p.getOhb =
      if (p.x = true ∧ p.len < p.extOff + 4) ∨ p.len < p.payOff ∨
          p.len - p.payOff < ohbLength p.ohbLast then .error .invalidField
      else .ok (p.octet p.ohbPtOff &&& 0x7F#8,
        BitVec.ofNat 16 (Memory.readBE p.buf p.ohbSeqOff 2), p.ohbM) := by
  dsimp only [Pkt.getOhb]
  simp only [badPay_iff, ite_or, Pkt.ohbPtOff, Pkt.ohbSeqOff, Pkt.ohbM]
  cases p.ohbLast.getLsbD 0 <;> cases p.ohbLast.getLsbD 1 <;> rfl

theorem Pkt.encodeOperand_ohbM (p : Pkt) :
    encodeOperand (.bool p.ohbM) =
      [if p.ohbLast &&& 0x04#8 = 0x04#8 then (p.ohbLast >>> 3) &&& 0x01#8
        else p.octet 1 >>> 7] := by
  have hm : p.ohbLast &&& 0x04#8 = 0x04#8 ↔ p.ohbLast.getLsbD 2 = true :=
    and_bitAt_eq_iff p.ohbLast (k := 2) (by decide)
  rw [Pkt.ohbM, ite_congr (propext hm) (fun _ => rfl) (fun _ => rfl)]
  split
  · exact encodeOperand_getLsbD _ 3
  · exact encodeOperand_getLsbD_seven _

section
variable {s : State}

theorem exec_rtpGetOhbLen_loaded (hv : s.pkt.valid = true) :
    exec .rtpGetOhbLen s =
      .next (s.respond [0x00#8, BitVec.ofNat 8 (ohbLength s.pkt.ohbLast)]) := by
  rw [← encodeOperand_u8, ← encodeOperands_singleton]
  exact perform_readPkt_ok hv rfl

theorem exec_rtpGetOhb_error {k : Status} (hv : s.pkt.valid = true)
    (hget : s.pkt.getOhb = .error k) : exec .rtpGetOhb s = .next (s.respond [k.code]) := by
  show perform s (s.readPkt _) = _
  rw [State.readPkt_loaded hv, hget]
  rfl

/-- R203 past its checks, as octets of the buffer. -/
theorem exec_rtpGetOhb_octets (hv : s.pkt.valid = true)
    (hget : s.pkt.getOhb = .ok (s.pkt.octet s.pkt.ohbPtOff &&& 0x7F#8,
      BitVec.ofNat 16 (Memory.readBE s.pkt.buf s.pkt.ohbSeqOff 2), s.pkt.ohbM)) :
    exec .rtpGetOhb s = .next (s.respond [0x00#8, s.pkt.octet s.pkt.ohbPtOff &&& 0x7F#8,
      s.pkt.octet s.pkt.ohbSeqOff, s.pkt.octet (s.pkt.ohbSeqOff + 1),
      if s.pkt.ohbLast &&& 0x04#8 = 0x04#8 then (s.pkt.ohbLast >>> 3) &&& 0x01#8
        else s.pkt.octet 1 >>> 7]) := by
  have hexec : exec .rtpGetOhb s = .next (s.respond (0x00#8 :: encodeOperands
      [.u8 (s.pkt.octet s.pkt.ohbPtOff &&& 0x7F#8),
        .u16 (BitVec.ofNat 16 (Memory.readBE s.pkt.buf s.pkt.ohbSeqOff 2)),
        .bool s.pkt.ohbM])) := perform_readPkt_ok hv (by rw [hget]; rfl)
  rw [hexec, encodeOperands_cons, encodeOperands_cons, encodeOperands_singleton,
    encodeOperand_u8, encodeOperand_readBE_two, Pkt.encodeOperand_ohbM]
  rfl

end

/-! ## `RTP.GETOHB` after `RTP.SETOHB` (R203) -/

/-- R92: the config byte tells the length of the block it ends. -/
theorem Pkt.ohbLength_ohbConfig (p : Pkt) (pt : BitVec 8) (seq : BitVec 16) (m : Bool) :
    ohbLength (p.ohbConfig pt seq m) = (p.ohbBlock pt seq m).length := by
  obtain ⟨hseq, hpt, -, -⟩ := p.ohbConfig_bits pt seq m
  rw [ohbLength, hseq, hpt, Pkt.length_ohbBlock]
  omega

section
variable {p q : Pkt} {pt : BitVec 8} {seq : BitVec 16} {m : Bool}
  (hq : q = p.append (p.ohbBlock pt seq m))
include hq

/-! The parts of the block, each found from the end of the packet. -/

theorem Pkt.ohbLast_of_append : q.ohbLast = p.ohbConfig pt seq m := by
  subst hq
  exact List.head_eq_of_cons_eq (p.slice_append_part (part := [p.ohbConfig pt seq m]) (post := [])
    (n := 1) _ (List.append_nil _).symm rfl)

theorem Pkt.slice_seq_of_append (hne : seq ≠ p.seq) :
    Memory.slice q.buf (q.len - 3) 2 = beBytes 2 seq.toNat := by
  subst hq
  refine p.slice_append_part (pre := if pt != p.pt then [pt] else [])
    (part := beBytes 2 seq.toNat) (post := [p.ohbConfig pt seq m]) _ ?_ rfl
  rw [Pkt.ohbBlock, if_pos (bne_iff_ne.mpr hne)]

theorem Pkt.octet_pt_of_append (hne : pt ≠ p.pt) :
    q.octet (q.len - if seq != p.seq then 4 else 2) = pt := by
  subst hq
  refine List.head_eq_of_cons_eq (p.slice_append_part (pre := []) (part := [pt])
    (post := (if seq != p.seq then beBytes 2 seq.toNat else []) ++ [p.ohbConfig pt seq m]) _ ?_ ?_)
  · rw [Pkt.ohbBlock, if_pos (bne_iff_ne.mpr hne), List.nil_append, List.append_assoc]
  · split <;> rfl

/-! A field that is not in the block is still in the header. -/

theorem Pkt.recorded_seq (h12 : 12 ≤ p.len) :
    BitVec.ofNat 16 (Memory.readBE q.buf q.ohbSeqOff 2) = seq := by
  obtain ⟨hbit, -⟩ := p.ohbConfig_bits pt seq m
  rw [Pkt.ohbSeqOff, Pkt.ohbLast_of_append hq, hbit]
  by_cases heq : seq = p.seq
  · rw [if_neg (by simp [heq]), heq, hq]
    exact Operand.u16.inj (p.append_field _ .seq h12)
  · rw [if_pos (bne_iff_ne.mpr heq), Memory.readBE, Pkt.slice_seq_of_append hq heq,
      beNat_beBytes_of_lt (n := 2) seq.isLt, BitVec.ofNat_toNat, BitVec.setWidth_eq]

theorem Pkt.recorded_pt (h12 : 12 ≤ p.len) (hrange : pt.toNat < 2 ^ 7) :
    q.octet q.ohbPtOff &&& 0x7F#8 = pt := by
  obtain ⟨hbitSeq, hbit, -⟩ := p.ohbConfig_bits pt seq m
  rw [Pkt.ohbPtOff, Pkt.ohbLast_of_append hq, hbit, hbitSeq]
  by_cases heq : pt = p.pt
  · rw [if_neg (by simp [heq]), heq, hq]
    exact Operand.u8.inj (p.append_field _ .pt h12)
  · rw [if_pos (bne_iff_ne.mpr heq), ← apply_ite (q.len - ·), Pkt.octet_pt_of_append hq heq,
      and_lowMask_of_lt hrange rfl]

theorem Pkt.recorded_m (h12 : 12 ≤ p.len) : q.ohbM = m := by
  obtain ⟨-, -, hbit, hvalue⟩ := p.ohbConfig_bits pt seq m
  rw [Pkt.ohbM, Pkt.ohbLast_of_append hq, hbit, hvalue]
  by_cases heq : m = p.m
  · rw [if_neg (by simp [heq]), heq, hq]
    exact Operand.bool.inj (p.append_field _ .m h12)
  · rw [if_pos (bne_iff_ne.mpr heq), bne_iff_ne.mpr heq, Bool.true_and]

end

/-- R203: what a successful `RTP.SETOHB` recorded is read back. -/
theorem Pkt.getOhb_setOhb {p q : Pkt} {pt : BitVec 8} {seq : BitVec 16} {m : Bool}
    (hq : p.setOhb pt seq m = .ok q) (hgood : p.badPay = false) :
    q.getOhb = .ok (pt, seq, m) := by
  obtain ⟨hrange, hq⟩ := Pkt.setOhb_append hq
  obtain ⟨hqGood, hqPay⟩ := Pkt.append_layout (p.ohbBlock pt seq m) hgood
  rw [← hq] at hqGood hqPay
  obtain ⟨hblock, hend⟩ := q.badPay_eq_false_iff.mp hqGood
  obtain ⟨-, hpEnd⟩ := p.badPay_eq_false_iff.mp hgood
  have h12 : 12 ≤ p.len := (p.le_extOff.trans p.extOff_le_payOff).trans hpEnd
  have hroom : ohbLength q.ohbLast ≤ q.len - q.payOff := by
    rw [Pkt.ohbLast_of_append hq, Pkt.ohbLength_ohbConfig, hqPay, hq, Pkt.append_len]
    omega
  have hfits : ¬ ((q.x = true ∧ q.len < q.extOff + 4) ∨ q.len < q.payOff ∨
      q.len - q.payOff < ohbLength q.ohbLast) := by
    rintro (⟨hx, hshort⟩ | hshort | hshort)
    · exact absurd (hblock hx) (by omega)
    · omega
    · omega
  rw [Pkt.getOhb_eq, if_neg hfits, Pkt.recorded_pt hq h12 hrange, Pkt.recorded_seq hq h12,
    Pkt.recorded_m hq h12]

end Sys2Proof.Machine
end

section
/-! SUPPORT. The statements of spec/43_ohb.md. -/

namespace Sys2Proof.Machine

/-- Settles O36: the checks in R201's order, then the block is appended. -/
theorem setOhbAppendsTheBlock : Obligations.SetOhbAppendsTheBlock := by
  intro pt seq m s
  dsimp only
  rw [← Pkt.ohbConfig_eq, ← Pkt.ohbBlock_eq]
  refine exec_empty_or_loaded rfl fun hv => ?_
  have hset := s.pkt.setOhb_eq pt seq m
  split_ifs at hset ⊢
  · exact perform_editPkt_error (f := fun p => p.setOhb pt seq m) hv hset
  · exact perform_editPkt_error (f := fun p => p.setOhb pt seq m) hv hset
  · exact perform_editPkt_append (f := fun p => p.setOhb pt seq m) hv hset

/-- Settles O37: the length from the last byte; the answer from the places of PT and SEQ, which the
two low bits of that byte give; and the operands of `RTP.SETOHB` read back. -/
theorem getOhbReadsTheBlock : Obligations.GetOhbReadsTheBlock := by
  refine ⟨fun s => ?answer, fun pt seq m s t hgood => ?stored⟩
  case answer =>
    have hlast : Memory.read s.pkt.buf (s.pkt.len - 1) = s.pkt.ohbLast := rfl
    dsimp only
    rw [hlast, ← ohbLength_eq, and_three_eq]
    by_cases hv : s.pkt.valid = false
    · rw [if_pos hv]
      exact ⟨exec_of_empty_slot rfl hv, exec_of_empty_slot rfl hv⟩
    rw [if_neg hv]
    have hvalid : s.pkt.valid = true := by simpa using hv
    refine ⟨exec_rtpGetOhbLen_loaded hvalid, ?_⟩
    have hget := s.pkt.getOhb_eq
    by_cases hbad : (s.pkt.x = true ∧ s.pkt.len < s.pkt.extOff + 4) ∨ s.pkt.len < s.pkt.payOff ∨
        s.pkt.len - s.pkt.payOff < ohbLength s.pkt.ohbLast
    · rw [if_pos hbad] at hget ⊢
      exact exec_rtpGetOhb_error hvalid hget
    rw [if_neg hbad] at hget ⊢
    have hanswer := exec_rtpGetOhb_octets hvalid hget
    have hnext : s.pkt.ohbSeqOff + 1 = if s.pkt.ohbLast.getLsbD 0 then s.pkt.len - 2 else 3 := by
      have := s.pkt.le_extOff
      have := s.pkt.extOff_le_payOff
      unfold Pkt.ohbSeqOff
      split <;> omega
    rw [hnext, Pkt.ohbPtOff, Pkt.ohbSeqOff] at hanswer
    -- the four layouts of the block: each pair of bits picks one case of the statement
    revert hanswer
    cases s.pkt.ohbLast.getLsbD 0 <;> cases s.pkt.ohbLast.getLsbD 1 <;> exact fun h => h
  case stored =>
    refine get_after_edit (edit := fun p => p.setOhb pt seq m) fun q hq =>
      ⟨Pkt.edited_setOhb hq, ?_⟩
    rw [Pkt.getOhb_setOhb hq hgood]
    rfl

end Sys2Proof.Machine
end

section
/-! SUPPORT. How an `RTCP.*` command ends: on an empty slot (R225), and on a loaded one by what its
check chain yields. -/

namespace Sys2Proof.Machine

/-! ## A loaded slot -/

/-- A command that answers one value read from the slot. -/
theorem perform_readRtcp_value {s : State} {get : Rtcp → Operand} {bytes : Bytes}
    (hv : s.rtcp.valid = true) (hbytes : encodeOperand (get s.rtcp) = bytes) :
    perform s (s.readRtcp fun r => .ok [get r]) = .next (s.respond (0x00#8 :: bytes)) := by
  rw [State.readRtcp_loaded hv, ← hbytes, ← encodeOperands_singleton]
  rfl

theorem perform_editRtcp_error {s : State} {f : Rtcp → Except Status Rtcp} {k : Status}
    (hv : s.rtcp.valid = true) (hf : f s.rtcp = .error k) :
    perform s (s.editRtcp f) = .next (s.respond [k.code]) := by
  rw [State.editRtcp_loaded hv, hf]
  rfl

theorem perform_editRtcp_ok {s : State} {f : Rtcp → Except Status Rtcp} {q : Rtcp}
    (hv : s.rtcp.valid = true) (hf : f s.rtcp = .ok q) :
    perform s (s.editRtcp f) = .next ((s.withRtcp q).respond [0x00#8]) := by
  rw [State.editRtcp_loaded hv, hf]
  rfl

/-- An edit that is one write of `RTCP.BUF`, in the form of the statements. -/
theorem perform_editRtcp_write {s : State} {f : Rtcp → Except Status Rtcp} {a : Nat} {bs : Bytes}
    (hv : s.rtcp.valid = true) (hf : f s.rtcp = .ok (s.rtcp.write a bs)) :
    ∃ b, perform s (s.editRtcp f) =
        .next (({ s with rtcp := { s.rtcp with buf := b } } : State).respond [0x00#8]) ∧
      Memory.patched b s.rtcp.buf a bs :=
  ⟨_, perform_editRtcp_ok hv hf, Memory.patched_write s.rtcp.buf a bs⟩

/-- A command that fills the slot, whether or not it held a packet (R211, R212). -/
theorem perform_fillRtcp {s : State} {x : Except Status Rtcp} {q : Rtcp} (hx : x = .ok q) :
    perform s (x.map fun r => (s.withRtcp r, [])) = .next ((s.withRtcp q).respond [0x00#8]) := by
  rw [hx]
  rfl

/-! ## An empty slot -/

theorem perform_readRtcp_empty {s : State} (hv : s.rtcp.valid = false)
    (f : Rtcp → Except Status (List Operand)) :
    perform s (s.readRtcp f) = .next (s.respond [0x07#8]) := by
  rw [State.readRtcp_empty hv]
  rfl

theorem perform_editRtcp_empty {s : State} (hv : s.rtcp.valid = false)
    (f : Rtcp → Except Status Rtcp) :
    perform s (s.editRtcp f) = .next (s.respond [0x07#8]) := by
  rw [State.editRtcp_empty hv]
  rfl

/-- R225: without a packet, every `RTCP.*` command but `RTCP.LOAD` and `RTCP.LOADS` answers 07. -/
theorem exec_of_empty_rtcp {i : Instr} {s : State} (hi : needsRtcpPacket i = true)
    (hv : s.rtcp.valid = false) : exec i s = .next (s.respond [0x07#8]) := by
  cases i with
  | rtcpStore | rtcpGetPt | rtcpGetLenW | rtcpGetLenB | rtcpGetSsrc | rtcpGetIndex | rtcpGetE =>
    exact perform_readRtcp_empty hv _
  | rtcpSetPt | rtcpSetLenW | rtcpSetSsrc | rtcpSetIndex | rtcpSetE | rtcpEncGcm | rtcpDecGcm =>
    exact perform_editRtcp_empty hv _
  | _ => cases hi

/-- A class of opcodes within 0x52 to 0x5F needs a packet. -/
theorem needsRtcpPacket_of_opcodeIn {i : Instr} {lo hi : Nat} (h : opcodeIn i lo hi = true)
    (hlo : 0x52 ≤ lo) (hhi : hi ≤ 0x5F) : needsRtcpPacket i = true := by
  rw [opcodeIn_iff] at h
  exact opcodeIn_iff.mpr (by omega)

end Sys2Proof.Machine
end

section
/-! SUPPORT. The RTCP slot: what filling it, the ESRTCP word's setters and the getters yield, their
checks in order and in plain arithmetic (R211 to R224). -/

namespace Sys2Proof.Machine

/-! ## Filling the slot (R211, R212) -/

theorem Rtcp.load_eq (r : Rtcp) (data : Bytes) :
    r.load data =
      if 1500 < data.length then .error .sizeOverflow
      else if data.length < 8 then .error .invalidField
      else .ok { valid := true, buf := Memory.write r.buf 0 data, len := data.length,
                 esp := false, esw := 0#32 } := by
  rw [Rtcp.load, mtu_eq, rtcpHdr_eq]

theorem Rtcp.loads_eq (r : Rtcp) (data : Bytes) :
    r.loads data =
      if 1500 < data.length then .error .sizeOverflow
      else if data.length < 12 then .error .invalidField
      else .ok { valid := true, buf := Memory.write r.buf 0 (data.take (data.length - 4)),
                 len := data.length - 4, esp := true,
                 esw := BitVec.ofNat 32 (beNat (data.drop (data.length - 4))) } := by
  rw [Rtcp.loads, mtu_eq, rtcpHdr_eq, esrtcpLen_eq]

/-- R212: a packet and the four bytes of an ESRTCP word, as `RTCP.LOADS` takes them apart. -/
theorem Rtcp.loads_append (r : Rtcp) {packet : Bytes} (w : BitVec 32) (hmin : 8 ≤ packet.length)
    (hmax : packet.length + 4 ≤ 1500) :
    r.loads (packet ++ beBytes 4 w.toNat) =
      .ok { valid := true, buf := Memory.write r.buf 0 packet, len := packet.length, esp := true,
            esw := w } := by
  have hlen : (packet ++ beBytes 4 w.toNat).length = packet.length + 4 := by simp
  rw [Rtcp.loads_eq, hlen, if_neg (by omega), if_neg (by omega), Nat.add_sub_cancel,
    List.take_left, List.drop_left, beNat_beBytes_of_lt (n := 4) w.isLt, BitVec.ofNat_toNat,
    BitVec.setWidth_eq]

/-! ## The ESRTCP word (R95, R223, R224) -/

theorem Rtcp.noRoomForEsw_iff (r : Rtcp) :
    r.noRoomForEsw = true ↔ r.esp = false ∧ 1500 < r.len + 4 := by
  simp [Rtcp.noRoomForEsw, mtu_eq, esrtcpLen_eq]

theorem Rtcp.setIndex_eq (r : Rtcp) (index : BitVec 32) :
    r.setIndex index =
      if 0x7FFFFFFF < index.toNat then .error .invalidField
      else if r.esp = false ∧ 1500 < r.len + 4 then .error .sizeOverflow
      else .ok (r.setEsw ((r.esw &&& 0x80000000#32) ||| index)) := by
  simp only [Rtcp.setIndex, Rtcp.noRoomForEsw_iff]

theorem Rtcp.setE_eq (r : Rtcp) (e : Bool) :
    r.setE e =
      if r.esp = false ∧ 1500 < r.len + 4 then .error .sizeOverflow
      else .ok (r.setEsw ((r.esw &&& 0x7FFFFFFF#32) |||
        (if e = true then 0x80000000#32 else 0#32))) := by
  simp only [Rtcp.setE, Rtcp.noRoomForEsw_iff]

/-- A byte of a word that a mask has in full stays. -/
theorem extractLsb'_and_of_ones {w mask : BitVec 32} {k : Nat}
    (hmask : mask.extractLsb' k 8 = 0xFF#8) : (w &&& mask).extractLsb' k 8 = w.extractLsb' k 8 := by
  rw [BitVec.extractLsb'_and, hmask]
  exact BitVec.and_allOnes

/-- The index on the wire: the word's bytes without the E bit. -/
theorem Rtcp.encodeOperand_index (r : Rtcp) :
    encodeOperand (.u32 r.index) =
      [r.esw.extractLsb' 24 8 &&& 0x7F#8, r.esw.extractLsb' 16 8, r.esw.extractLsb' 8 8,
        r.esw.extractLsb' 0 8] := by
  rw [encodeOperand_u32, Rtcp.index, extractLsb'_and_of_ones (k := 16) rfl,
    extractLsb'_and_of_ones (k := 8) rfl, extractLsb'_and_of_ones (k := 0) rfl,
    BitVec.extractLsb'_and]
  rfl

/-- The E bit on the wire: the top bit of the word's first byte. -/
theorem Rtcp.encodeOperand_e (r : Rtcp) :
    encodeOperand (.bool r.e) = [r.esw.extractLsb' 24 8 >>> 7] := by
  have hbit : r.e = (r.esw.extractLsb' 24 8).getLsbD 7 := by
    rw [BitVec.getLsbD_extractLsb']
    rfl
  rw [hbit, encodeOperand_getLsbD_seven]

/-! ## The length in bytes (R13, R216) -/

/-- The length field has 16 bits, so the length in bytes does not wrap. -/
theorem Rtcp.lenBytes_toNat (r : Rtcp) :
    r.lenBytes.toNat = (Memory.readBE r.buf 2 2 + 1) * 4 := by
  have hfield : Memory.readBE r.buf 2 2 < 256 ^ 2 := 
    beNat_lt (Memory.slice r.buf 2 2)
  rw [Rtcp.lenBytes, BitVec.toNat_ofNat, Nat.mod_eq_of_lt (by omega)]

theorem Rtcp.encodeOperand_lenBytes (r : Rtcp) :
    encodeOperand (.u32 r.lenBytes) = beBytes 4
      (((Memory.read r.buf 2).toNat * 256 + (Memory.read r.buf 3).toNat + 1) * 4) := by
  rw [← Memory.readBE_two, ← Rtcp.lenBytes_toNat]
  rfl

end Sys2Proof.Machine
end

section
/-! SUPPORT. The statements of spec/44_rtcp.md. -/

namespace Sys2Proof.Machine

/-- Settles O38: the checks in the order of R211 and of R212, then the slot is filled; the four bytes
cut off make the ESRTCP word. -/
theorem rtcpLoadsTakeThePacket : Obligations.RtcpLoadsTakeThePacket := by
  refine fun data s => ⟨?load, ?loads⟩
  case load =>
    have hload := s.rtcp.load_eq data
    split_ifs at hload ⊢
    · exact perform_map_error hload
    · exact perform_map_error hload
    · exact ⟨_, perform_fillRtcp hload, Memory.patched_write _ _ _⟩
  case loads =>
    have hloads := s.rtcp.loads_eq data
    split_ifs at hloads ⊢ with hmax hmin
    · exact perform_map_error hloads
    · exact perform_map_error hloads
    · have hword : (data.drop (data.length - 4)).length = 4 := by
        rw [List.length_drop]
        omega
      refine ⟨_, _, perform_fillRtcp hloads, Memory.patched_write _ _ _, ?_⟩
      rw [← beBytes_four, beBytes_ofNat_beNat hword rfl]

/-- Settles O39: what R213 answers, by `ESP`; `RTCP.LOADS` of it writes the bytes that stand in the
buffer already. -/
theorem rtcpStoreAndReload : Obligations.RtcpStoreAndReload := by
  intro s
  dsimp only
  rw [← beBytes_four]
  by_cases hempty : s.rtcp.valid = false
  · rw [if_pos hempty]
    exact exec_of_empty_rtcp rfl hempty
  rw [if_neg hempty]
  have hv : s.rtcp.valid = true := by simpa using hempty
  have hstore : exec .rtcpStore s =
      .next (s.respond (0x00#8 :: encodeOperands [.bytes s.rtcp.wire])) := by
    rw [encodeOperands_singleton]
    exact perform_readRtcp_value (get := fun r => .bytes r.wire) hv rfl
  cases hesp : s.rtcp.esp with
  | false =>
    rw [Rtcp.wire, hesp] at hstore
    exact hstore
  | true =>
    rw [Rtcp.wire, hesp] at hstore
    refine ⟨hstore, fun hmin hmax => ?_⟩
    have hlen := Memory.length_slice s.rtcp.buf 0 s.rtcp.len
    have hloads := s.rtcp.loads_append (packet := Memory.slice s.rtcp.buf 0 s.rtcp.len) s.rtcp.esw
      (by omega) (by omega)
    rw [hlen] at hloads
    rw [hv]
    exact ⟨_, perform_fillRtcp hloads, (Memory.patched_write _ _ _).read_of_slice⟩

/-- Settles O40: on a loaded slot each getter answers one value, whose encoding is made of octets of
the header or of the ESRTCP word. -/
theorem rtcpGetters : Obligations.RtcpGetters := by
  intro s
  dsimp only
  by_cases hempty : s.rtcp.valid = false
  · rw [if_pos hempty]
    intro i hi
    exact exec_of_empty_rtcp (needsRtcpPacket_of_opcodeIn hi (by decide) (by decide)) hempty
  rw [if_neg hempty]
  have hv : s.rtcp.valid = true := by simpa using hempty
  exact ⟨perform_readRtcp_value (get := fun r => .u8 r.pt) hv (encodeOperand_u8 _),
    perform_readRtcp_value (get := fun r => .u16 r.lenWords) hv (encodeOperand_readBE_two _ 2),
    perform_readRtcp_value (get := fun r => .u32 r.lenBytes) hv s.rtcp.encodeOperand_lenBytes,
    perform_readRtcp_value (get := fun r => .u32 r.ssrc) hv (encodeOperand_readBE_four _ 4),
    perform_readRtcp_value (get := fun r => .u32 r.index) hv s.rtcp.encodeOperand_index,
    perform_readRtcp_value (get := fun r => .bool r.e) hv s.rtcp.encodeOperand_e⟩

/-- Settles O41: on a loaded slot the header setters are one write each; the setters of the ESRTCP
word check the range and the room, in the order of R223 and R224. -/
theorem rtcpSetters : Obligations.RtcpSetters := by
  intro pt words w e s
  dsimp only
  by_cases hempty : s.rtcp.valid = false
  · rw [if_pos hempty]
    intro i hi
    exact exec_of_empty_rtcp (needsRtcpPacket_of_opcodeIn hi (by decide) (by decide)) hempty
  rw [if_neg hempty, ← beBytes_two words, ← beBytes_four w]
  have hv : s.rtcp.valid = true := by simpa using hempty
  refine ⟨perform_editRtcp_write hv rfl, perform_editRtcp_write hv rfl,
    perform_editRtcp_write hv rfl, ?index, ?flag⟩
  case index =>
    have hset := s.rtcp.setIndex_eq w
    split_ifs at hset ⊢
    · exact perform_editRtcp_error (f := fun r => r.setIndex w) hv hset
    · exact perform_editRtcp_error (f := fun r => r.setIndex w) hv hset
    · exact perform_editRtcp_ok (f := fun r => r.setIndex w) hv hset
  case flag =>
    have hset := s.rtcp.setE_eq e
    by_cases hroom : s.rtcp.esp = false ∧ 1500 < s.rtcp.len + 4
    · rw [if_pos hroom] at hset ⊢
      exact perform_editRtcp_error (f := fun r => r.setE e) hv hset
    · rw [if_neg hroom] at hset ⊢
      exact perform_editRtcp_ok (f := fun r => r.setE e) hv hset

end Sys2Proof.Machine
end

section
/-! SUPPORT. Key derivation: what each check chain of the KDF unit yields, and that a longer output
continues a shorter one. -/

namespace Sys2Proof.Machine

/-! ## The master key (R241) -/

theorem Kdf.init_eq (k : Kdf) (key salt : Bytes) :
    k.init key salt =
      if (key.length ≠ 16 ∧ key.length ≠ 32) ∨ 14 < salt.length then .error .invalidField
      else .ok { valid := true, key := key ++ k.key.drop key.length, klen := key.length,
                 salt := salt ++ List.replicate (14 - salt.length) 0x00#8 } := by
  simp only [Kdf.init, badKeyLength_iff, msaltLen_eq, ite_or, overwrite, zeros]

/-! ## The checks of a derivation (R244, R247) -/

theorem Kdf.derive_eq (k : Kdf) (label index size : Nat) :
    k.derive label index size =
      if k.valid = false then .error .illegalCommand
      else if 5 < label then .error .invalidField
      else .ok (k.prf label index size) := by
  simp only [Kdf.derive, Bool.not_eq_true']

/-- R245: the keys of `n` bytes and the salts that a supported cipher has. -/
def Kdf.streamKeys (k : Kdf) (n : Nat) : StreamKeys :=
  { rtpKey := k.prf 0 0 n, rtpSalt := k.prf 2 0 12, rtcpKey := k.prf 3 0 n,
    rtcpSalt := k.prf 5 0 12 }

theorem Kdf.deriveStream_eq (k : Kdf) (cipher : BitVec 16) :
    k.deriveStream cipher =
      if k.valid = false then .error .illegalCommand
      else if cipher = 0x0007#16 then .ok (k.streamKeys 16)
      else if cipher = 0x0008#16 then .ok (k.streamKeys 32)
      else .error .unsupportedCipher := by
  simp only [Kdf.deriveStream, cipherKeyLength, Bool.not_eq_true']
  split_ifs <;> rfl

/-! ## How a command ends that performs a check chain -/

/-- A command whose check chain yields a value: what it does with it is the state it leaves and its
results. -/
theorem perform_map_ok {α : Type} {s : State} {x : Except Status α} {a : α}
    {g : α → State × List Operand} (hx : x = .ok a) :
    perform s (x.map g) = .next ((g a).1.respond (0x00#8 :: encodeOperands (g a).2)) := by
  rw [hx]
  rfl

/-! ## The pseudo-random function (R242, R246) -/

/-- The four steps of R242, over the label's byte and the index's six. -/
theorem Kdf.prf_toNat (k : Kdf) (label : Byte) (index : BitVec 48) (n : Nat) :
    k.prf label.toNat index.toNat n =
      ctr (k.key.take k.klen)
        (blockOfBytes (k.salt.take 7 ++ xorBytes (k.salt.drop 7) (label :: beBytes 6 index.toNat) ++
          [0x00#8, 0x00#8])) n := by
  rw [Kdf.prf, Kdf.prfIv, beBytes_one]
  rfl

/-- The key stream of more blocks starts with that of fewer. -/
theorem keyStream_prefix (next : Block → Block) (key : Bytes) {m n : Nat} (h : m ≤ n) (b : Block) :
    keyStream next key m b <+: keyStream next key n b := by
  induction m generalizing n b with
  | zero => exact List.nil_prefix
  | succ m ih =>
    cases n with
    | zero => omega
    | succ n => exact (List.prefix_append_right_inj _).mpr (ih (by omega) (next b))

theorem blockCount_mono {m n : Nat} (h : m ≤ n) : blockCount m ≤ blockCount n :=
  Nat.div_le_div_right (Nat.add_le_add_right h 15)

/-- R246: counter mode's shorter output is the start of its longer one. -/
theorem ctr_eq_take (key : Bytes) (iv : Block) {m n : Nat} (h : m ≤ n) :
    ctr key iv m = (ctr key iv n).take m := by
  obtain ⟨rest, hrest⟩ := keyStream_prefix (fun b => b + 1#128) key (blockCount_mono h) iv
  have hcover := le_blockCount m
  rw [ctr, ctr, List.take_take, Nat.min_eq_left h, ← hrest,
    List.take_append_of_le_length (by rwa [length_keyStream])]

end Sys2Proof.Machine
end

section
/-! SUPPORT. The statements of spec/45_kdf.md. -/

namespace Sys2Proof.Machine

/-- Settles O50: R241's two checks, then the unit is written. -/
theorem kdfInitInstallsTheMasterKey : Obligations.KdfInitInstallsTheMasterKey := by
  intro key salt s
  have hinit := s.kdf.init_eq key salt
  split_ifs at hinit ⊢
  · exact perform_map_error hinit
  · exact perform_map_ok hinit

/-- Settles O51: the checks in the order of R244 and of R247, the answers as outputs of R242's
function, and R246 from counter mode. -/
theorem kdfDerivesKeys : Obligations.KdfDerivesKeys := by
  intro label index size cipher s k prf stream
  have hprf (l : Byte) (ix : BitVec 48) (n : Nat) : prf l ix n = k.prf l.toNat ix.toNat n :=
    (k.prf_toNat l ix n).symm
  have hstream (n : Nat) : stream n = encodeOperands [.bytes (k.streamKeys n).rtpKey,
      .bytes (k.streamKeys n).rtpSalt, .bytes (k.streamKeys n).rtcpKey,
      .bytes (k.streamKeys n).rtcpSalt] := by
    simp only [stream, hprf]
    rfl
  refine ⟨?derive, ?deriveStream, fun l ix m n h => ctr_eq_take _ _ h⟩
  case derive =>
    have hderive := k.derive_eq label.toNat index.toNat size.toNat
    rw [hprf]
    split_ifs at hderive ⊢
    · exact perform_map_error hderive
    · exact perform_map_error hderive
    · exact perform_map_ok hderive
  case deriveStream =>
    have hderive := k.deriveStream_eq cipher
    rw [hstream, hstream]
    split_ifs at hderive ⊢
    · exact perform_map_error hderive
    · exact perform_map_ok hderive
    · exact perform_map_ok hderive
    · exact perform_map_error hderive

end Sys2Proof.Machine
end

section
/-! SUPPORT. AES-GCM on the packet slot: the payload and what follows it give way to other bytes
(R262, R263), and opening undoes sealing (R264). -/

namespace Sys2Proof.Machine

/-! ## Replacing the bytes from `pay_off` on -/

/-- The packet cut off at `pay_off`, with `bs` after that. -/
def Pkt.replacePayload (p : Pkt) (bs : Bytes) : Pkt := (p.setLen p.payOff).append bs

/-- An edit that only replaces the bytes from `pay_off` on, in the form of the statements. -/
theorem perform_editPkt_replacePayload {s : State} {f : Pkt → Except Status Pkt} {bs : Bytes}
    {n : Nat} (hv : s.pkt.valid = true) (hf : f s.pkt = .ok (s.pkt.replacePayload bs))
    (hn : s.pkt.payOff + bs.length = n) :
    ∃ b, perform s (s.editPkt f) =
        .next (({ s with pkt := { s.pkt with buf := b, len := n } } : State).respond [0x00#8]) ∧
      Memory.patched b s.pkt.buf s.pkt.payOff bs ∧ s.pkt.payOff + bs.length = n := by
  subst hn
  exact ⟨_, perform_editPkt_ok hv hf, Memory.patched_write s.pkt.buf s.pkt.payOff bs, rfl⟩

section
variable (p : Pkt) (bs : Bytes)

theorem Pkt.replacePayload_eq :
    p.replacePayload bs = (p.write p.payOff bs).setLen (p.payOff + bs.length) := rfl

@[simp] theorem Pkt.replacePayload_len :
    (p.replacePayload bs).len = p.payOff + bs.length := rfl

/-- A packet cut off at `pay_off` still holds its whole header. -/
theorem Pkt.badPay_setLen_payOff : (p.setLen p.payOff).badPay = false := by
  refine (Pkt.badPay_eq_false_iff _).mpr ⟨fun (hx : p.x = true) => ?_, le_refl p.payOff⟩
  have hblock : p.payOff = p.extOff + 4 + 4 * p.extWords := if_pos hx
  show p.extOff + 4 ≤ p.payOff
  omega

/-- R262: the header, the CSRC list and the extension block are not changed. -/
theorem Pkt.replacePayload_layout :
    (p.replacePayload bs).badPay = false ∧ (p.replacePayload bs).payOff = p.payOff :=
  Pkt.append_layout bs p.badPay_setLen_payOff

theorem Pkt.slice_replacePayload_before {a n : Nat} (h : a + n ≤ p.payOff) :
    (p.replacePayload bs).slice a n = p.slice a n :=
  Memory.slice_write_disjoint _ _ _ _ _ (.inl h)

theorem Pkt.slice_replacePayload_same : (p.replacePayload bs).slice p.payOff bs.length = bs :=
  Memory.slice_write_same _ _ _ _ rfl

/-- Two strings put there one after the other are each read back. -/
theorem Pkt.slice_replacePayload_append (xs ys : Bytes) :
    (p.replacePayload (xs ++ ys)).slice p.payOff xs.length = xs ∧
      (p.replacePayload (xs ++ ys)).slice (p.payOff + xs.length) ys.length = ys := by
  have hwhole := p.slice_replacePayload_same (xs ++ ys)
  rw [List.length_append, Pkt.slice, Memory.slice_append] at hwhole
  exact List.append_inj hwhole (Memory.length_slice _ _ _)

/-- R261: the IV is made of octets of the fixed header. -/
theorem Pkt.gcmIv_replacePayload (roc : BitVec 32) (salt : Bytes) :
    (p.replacePayload bs).gcmIv roc salt = p.gcmIv roc salt := by
  have h12 : 12 ≤ p.payOff := p.le_extOff.trans p.extOff_le_payOff
  rw [Pkt.gcmIv, Pkt.gcmIv, p.slice_replacePayload_before bs (by omega),
    p.slice_replacePayload_before bs (by omega)]

end

/-! ## The checks of R260 and R161, then the payload (R262, R263) -/

theorem badKeySalt_or_badPay_iff (p : Pkt) (key salt : Bytes) :
    badKeySalt key salt = true ∨ p.badPay = true ↔
      (key.length ≠ 16 ∧ key.length ≠ 32) ∨ salt.length ≠ 12 ∨
        (p.x = true ∧ p.len < p.extOff + 4) ∨ p.len < p.payOff := by
  rw [badKeySalt_iff, badPay_iff, or_assoc]

/-- What `RTP.ENCGCM` puts from `pay_off` on: ciphertext, then tag. -/
def Pkt.sealedPayload (p : Pkt) (roc : BitVec 32) (key salt : Bytes) : Bytes :=
  let sealed := gcmSeal key (p.gcmIv roc salt) (p.slice 0 p.payOff)
    (p.slice p.payOff (p.len - p.payOff))
  sealed.1 ++ sealed.2

/-- What `RTP.DECGCM` puts from `pay_off` on: the plaintext, if the last 16 bytes are the tag. -/
def Pkt.openedPayload (p : Pkt) (roc : BitVec 32) (key salt : Bytes) : Option Bytes :=
  gcmOpen key (p.gcmIv roc salt) (p.slice 0 p.payOff)
    (p.slice p.payOff (p.len - 16 - p.payOff)) (p.slice (p.len - 16) 16)

@[simp] theorem Pkt.length_slice (p : Pkt) (a n : Nat) : (p.slice a n).length = n :=
  Memory.length_slice _ _ _

theorem Pkt.end_of_sealedPayload {p : Pkt} (roc : BitVec 32) (key salt : Bytes)
    (hpay : p.payOff ≤ p.len) :
    p.payOff + (p.sealedPayload roc key salt).length = p.len + 16 := by
  simp only [Pkt.sealedPayload, List.length_append, length_gcmSeal_fst, length_gcmSeal_snd,
    Pkt.length_slice]
  omega

theorem Pkt.end_of_openedPayload {p : Pkt} {roc : BitVec 32} {key salt plain : Bytes}
    (hroom : p.payOff + 16 ≤ p.len) (h : p.openedPayload roc key salt = some plain) :
    p.payOff + plain.length = p.len - 16 := by
  rw [length_gcmOpen h, Pkt.length_slice]
  omega

theorem Pkt.encGcm_eq (p : Pkt) (roc : BitVec 32) (key salt : Bytes) :
    p.encGcm roc key salt =
      if (key.length ≠ 16 ∧ key.length ≠ 32) ∨ salt.length ≠ 12 ∨
          (p.x = true ∧ p.len < p.extOff + 4) ∨ p.len < p.payOff then .error .invalidField
      else if 1500 < p.len + 16 then .error .sizeOverflow
      else .ok (p.replacePayload (p.sealedPayload roc key salt)) := by
  simp only [← badKeySalt_or_badPay_iff, Pkt.encGcm, ite_or, mtu_eq, tagLen_eq]
  split_ifs with hkey hbad
  · rfl
  · rfl
  · rfl
  · have hpay : p.payOff ≤ p.len := (p.badPay_eq_false_iff.mp (by simpa using hbad)).2
    rw [p.replacePayload_eq, Pkt.end_of_sealedPayload roc key salt hpay]
    rfl

theorem Pkt.decGcm_eq (p : Pkt) (roc : BitVec 32) (key salt : Bytes) :
    p.decGcm roc key salt =
      if (key.length ≠ 16 ∧ key.length ≠ 32) ∨ salt.length ≠ 12 ∨
          (p.x = true ∧ p.len < p.extOff + 4) ∨ p.len < p.payOff then .error .invalidField
      else if p.len < p.payOff + 16 then .error .authFailure
      else (p.openedPayload roc key salt).elim (.error .authFailure)
        fun plain => .ok (p.replacePayload plain) := by
  simp only [← badKeySalt_or_badPay_iff, Pkt.decGcm, ite_or, tagLen_eq]
  split_ifs with hkey hbad htag
  · rfl
  · rfl
  · rfl
  · rw [← Pkt.openedPayload]
    cases hopen : p.openedPayload roc key salt with
    | none => rfl
    | some plain =>
      rw [Option.elim_some, p.replacePayload_eq, Pkt.end_of_openedPayload (by omega) hopen]

/-! ## `RTP.DECGCM` after `RTP.ENCGCM` (R264) -/

/-- R325, R326: what was sealed opens. -/
theorem gcmOpen_gcmSeal (key iv a plain : Bytes) :
    gcmOpen key iv a (gcmSeal key iv a plain).1 (gcmSeal key iv a plain).2 = some plain := by
  rw [gcmSeal, gcmOpen, if_pos rfl, gctr_gctr]

/-- The sealed packet opens to the bytes that stood from `pay_off` on. -/
theorem Pkt.openedPayload_sealed {p : Pkt} (roc : BitVec 32) (key salt : Bytes)
    (hpay : p.payOff ≤ p.len) :
    (p.replacePayload (p.sealedPayload roc key salt)).openedPayload roc key salt =
      some (p.slice p.payOff (p.len - p.payOff)) := by
  set sealed := gcmSeal key (p.gcmIv roc salt) (p.slice 0 p.payOff)
    (p.slice p.payOff (p.len - p.payOff)) with hsealed
  have hcipher : sealed.1.length = p.len - p.payOff := by simp [hsealed]
  have htag : sealed.2.length = 16 := by simp [hsealed]
  set q := p.replacePayload (p.sealedPayload roc key salt) with hq
  have hend : q.len - 16 = p.payOff + (p.len - p.payOff) := by
    rw [hq, Pkt.replacePayload_len, Pkt.end_of_sealedPayload roc key salt hpay]
    omega
  obtain ⟨hreadCipher, hreadTag⟩ := p.slice_replacePayload_append sealed.1 sealed.2
  rw [hcipher] at hreadCipher hreadTag
  rw [htag] at hreadTag
  rw [Pkt.openedPayload, hend, (p.replacePayload_layout _).2, Nat.add_sub_cancel_left,
    p.gcmIv_replacePayload, p.slice_replacePayload_before _ (by omega)]
  calc gcmOpen key (p.gcmIv roc salt) (p.slice 0 p.payOff) (q.slice p.payOff (p.len - p.payOff))
        (q.slice (p.payOff + (p.len - p.payOff)) 16)
      = gcmOpen key (p.gcmIv roc salt) (p.slice 0 p.payOff) sealed.1 sealed.2 :=
        congrArg₂ _ hreadCipher hreadTag
    _ = some (p.slice p.payOff (p.len - p.payOff)) := gcmOpen_gcmSeal _ _ _ _

/-- Putting back the bytes from `pay_off` on that another replacement took away restores the
packet. -/
theorem Pkt.replacePayload_restores {p : Pkt} (bs : Bytes) (hpay : p.payOff ≤ p.len) :
    ∃ b, (p.replacePayload bs).replacePayload (p.slice p.payOff (p.len - p.payOff)) =
        { p with buf := b } ∧
      Memory.slice b 0 p.len = Memory.slice p.buf 0 p.len := by
  set q := p.replacePayload bs with hq
  set plain := p.slice p.payOff (p.len - p.payOff) with hplain
  have hoff : q.payOff = p.payOff := (p.replacePayload_layout bs).2
  have hlen : p.payOff + plain.length = p.len := by
    rw [hplain, Pkt.length_slice]
    omega
  refine ⟨(q.replacePayload plain).buf, ?_, ?_⟩
  · rw [q.replacePayload_eq, hoff, hlen]
    rfl
  · have hhead : (q.replacePayload plain).slice 0 p.payOff = p.slice 0 p.payOff := by
      rw [q.slice_replacePayload_before _ (by omega), hq,
        p.slice_replacePayload_before _ (by omega)]
    have htail : (q.replacePayload plain).slice p.payOff plain.length = plain := by
      rw [← hoff]
      exact q.slice_replacePayload_same plain
    rw [← hlen, Memory.slice_append, Memory.slice_append, Nat.zero_add]
    refine congrArg₂ _ hhead (htail.trans ?_)
    rw [hplain, Pkt.length_slice]
    rfl

/-- Opening the sealed packet with the same operands succeeds and restores the packet. -/
theorem Pkt.decGcm_sealed {p : Pkt} {roc : BitVec 32} {key salt : Bytes}
    (hkeys : badKeySalt key salt = false) (hpay : p.payOff ≤ p.len) :
    ∃ b, (p.replacePayload (p.sealedPayload roc key salt)).decGcm roc key salt =
        .ok { p with buf := b } ∧
      Memory.slice b 0 p.len = Memory.slice p.buf 0 p.len := by
  obtain ⟨b, hb, hslice⟩ := Pkt.replacePayload_restores (p.sealedPayload roc key salt) hpay
  set q := p.replacePayload (p.sealedPayload roc key salt) with hq
  obtain ⟨hgood, hoff⟩ : q.badPay = false ∧ q.payOff = p.payOff := p.replacePayload_layout _
  have hchecks := (badKeySalt_or_badPay_iff q key salt).not.mp (by simp [hkeys, hgood])
  have hroom : ¬ q.len < q.payOff + 16 := by
    rw [hoff, hq, Pkt.replacePayload_len, Pkt.end_of_sealedPayload roc key salt hpay]
    omega
  refine ⟨b, ?_, hslice⟩
  rw [Pkt.decGcm_eq, if_neg hchecks, if_neg hroom, Pkt.openedPayload_sealed roc key salt hpay,
    Option.elim_some, hb]

end Sys2Proof.Machine
end

section
/-! SUPPORT. The statements of spec/46_aead_rtp.md. -/

namespace Sys2Proof.Machine

/-- Settles O44: the checks in R262's order, then the payload gives way to its seal. -/
theorem rtpEncGcmSealsThePayload : Obligations.RtpEncGcmSealsThePayload := by
  intro roc key salt s
  refine exec_empty_or_loaded rfl fun hv => ?_
  have henc := s.pkt.encGcm_eq roc key salt
  split_ifs at henc ⊢ with hbad hsize
  · exact perform_editPkt_error (f := fun p => p.encGcm roc key salt) hv henc
  · exact perform_editPkt_error (f := fun p => p.encGcm roc key salt) hv henc
  · exact perform_editPkt_replacePayload (f := fun p => p.encGcm roc key salt) hv henc
      (Pkt.end_of_sealedPayload roc key salt (by omega))

/-- Settles O45: the checks in R263's order; the payload gives way to the plaintext only where the
tag verified. -/
theorem rtpDecGcmOpensThePayload : Obligations.RtpDecGcmOpensThePayload := by
  intro roc key salt s
  refine exec_empty_or_loaded rfl fun hv => ?_
  have hdec := s.pkt.decGcm_eq roc key salt
  split_ifs at hdec ⊢ with hbad hroom
  · exact perform_editPkt_error (f := fun p => p.decGcm roc key salt) hv hdec
  · exact perform_editPkt_error (f := fun p => p.decGcm roc key salt) hv hdec
  split
  · next hopen =>
    rw [show s.pkt.openedPayload roc key salt = none from hopen] at hdec
    exact perform_editPkt_error (f := fun p => p.decGcm roc key salt) hv hdec
  · next plain hopen =>
    rw [show s.pkt.openedPayload roc key salt = some plain from hopen] at hdec
    exact perform_editPkt_replacePayload (f := fun p => p.decGcm roc key salt) hv hdec
      (Pkt.end_of_openedPayload (p := s.pkt) (by omega) hopen)

/-- Settles O46: sealing passes its checks, leaves the header from which the IV and the AAD are made,
and so is undone by opening. -/
theorem rtpAeadRoundTrip : Obligations.RtpAeadRoundTrip := by
  intro roc key salt s hv hgood hsize hkey hsalt
  have hkeys : badKeySalt key salt = false := by
    rw [← Bool.not_eq_true, badKeySalt_iff]
    omega
  have hchecks := (badKeySalt_or_badPay_iff s.pkt key salt).not.mp (by simp [hkeys, hgood])
  have henc : s.pkt.encGcm roc key salt =
      .ok (s.pkt.replacePayload (s.pkt.sealedPayload roc key salt)) := by
    rw [Pkt.encGcm_eq, if_neg hchecks, if_neg (by omega)]
  have hpay : s.pkt.payOff ≤ s.pkt.len := (s.pkt.badPay_eq_false_iff.mp hgood).2
  obtain ⟨b, hdec, hslice⟩ := Pkt.decGcm_sealed (roc := roc) hkeys hpay
  set q := s.pkt.replacePayload (s.pkt.sealedPayload roc key salt)
  exact ⟨(s.withPkt q).respond [0x00#8],
    perform_editPkt_ok (f := fun p => p.encGcm roc key salt) hv henc, rfl, b,
    perform_editPkt_ok (f := fun p => p.decGcm roc key salt)
      (s := (s.withPkt q).respond [0x00#8]) hv hdec, hslice⟩

end Sys2Proof.Machine
end

section
/-! SUPPORT. AES-GCM for RTCP: the checks of R272 and R273, what they put from offset 8 on, and that
a sealed packet opens to the packet it was made of, wherever it stands (R274). -/

namespace Sys2Proof.Machine

/-! ## A slot and its slices -/

/-- R225 as the statements put it: 07 on an empty slot, and the rest of the rule on a loaded one. -/
theorem exec_empty_or_loaded_rtcp {i : Instr} {s : State} {P : Prop}
    (hi : needsRtcpPacket i = true) (hloaded : s.rtcp.valid = true → P) :
    if s.rtcp.valid = false then exec i s = .next (s.respond [0x07#8]) else P := by
  split_ifs with hv
  · exact exec_of_empty_rtcp hi hv
  · exact hloaded (by simpa using hv)

/-- R213: `RTCP.STORE` answers the wire form. -/
theorem exec_rtcpStore_loaded {s : State} (hv : s.rtcp.valid = true) :
    exec .rtcpStore s = .next (s.respond (0x00#8 :: encodeOperands [.bytes s.rtcp.wire])) := by
  rw [encodeOperands_singleton]
  exact perform_readRtcp_value (get := fun r => .bytes r.wire) hv rfl

@[simp] theorem Rtcp.length_slice (r : Rtcp) (a n : Nat) : (r.slice a n).length = n :=
  Memory.length_slice _ _ _

theorem Rtcp.slice_add (r : Rtcp) (a n k : Nat) :
    r.slice a (n + k) = r.slice a n ++ r.slice (a + n) k :=
  Memory.slice_append _ _ _ _

/-- Two strings that stand one after the other are each read at their place. -/
theorem Rtcp.slice_eq_of_append {r : Rtcp} {a n k : Nat} {xs ys : Bytes}
    (h : r.slice a (n + k) = xs ++ ys) (hn : xs.length = n) :
    r.slice a n = xs ∧ r.slice (a + n) k = ys := by
  rw [Rtcp.slice_add] at h
  exact List.append_inj h (by rw [Rtcp.length_slice, hn])

/-! ## The E bit, the IV and the AAD (R95, R270) -/

theorem Rtcp.e_eq_false_iff (r : Rtcp) : r.e = false ↔ r.esw &&& 0x80000000#32 = 0#32 := by
  rw [Rtcp.e, show (0x80000000#32 : BitVec 32) = BitVec.twoPow 32 31 from rfl, BitVec.and_twoPow]
  cases r.esw.getLsbD 31 with
  | false => exact iff_of_true rfl rfl
  | true => exact iff_of_false (by decide) (by decide)

/-- Setting E leaves the index as it is. -/
theorem index_of_setE (w : BitVec 32) :
    (w ||| 0x80000000#32) &&& 0x7FFFFFFF#32 = w &&& 0x7FFFFFFF#32 := by
  rw [BitVec.and_or_distrib_right, show 0x80000000#32 &&& 0x7FFFFFFF#32 = 0#32 from rfl,
    BitVec.or_zero]

/-- R271: the IV is the same with E set. -/
theorem Rtcp.gcmIv_setE (r : Rtcp) (w : BitVec 32) (salt : Bytes) :
    r.gcmIv (w ||| 0x80000000#32) salt = r.gcmIv w salt := by
  rw [Rtcp.gcmIv, index_of_setE, Rtcp.gcmIv]

/-- R270: the AAD has E set in any case. -/
theorem Rtcp.gcmAad_setE (r : Rtcp) (w : BitVec 32) :
    r.gcmAad (w ||| 0x80000000#32) = r.gcmAad w := by
  rw [Rtcp.gcmAad, BitVec.or_assoc, BitVec.or_self, Rtcp.gcmAad]

/-- R270: the SSRC in the IV and the octets in the AAD are octets of the header. -/
theorem Rtcp.gcmIv_gcmAad_of_header {q r : Rtcp} (h : q.slice 0 8 = r.slice 0 8) (w : BitVec 32)
    (salt : Bytes) : q.gcmIv w salt = r.gcmIv w salt ∧ q.gcmAad w = r.gcmAad w := by
  have hssrc : q.slice 4 4 = r.slice 4 4 :=
    (Rtcp.slice_eq_of_append (n := 4) (h.trans (r.slice_add 0 4 4)) (r.length_slice 0 4)).2
  exact ⟨by rw [Rtcp.gcmIv, hssrc, Rtcp.gcmIv], by rw [Rtcp.gcmAad, h, Rtcp.gcmAad]⟩

/-! ## The checks, then the body (R272, R273) -/

/-- What `RTCP.ENCGCM` makes of the body: ciphertext and tag. -/
def Rtcp.bodySeal (r : Rtcp) (key salt : Bytes) : Bytes × Bytes :=
  gcmSeal key (r.gcmIv r.esw salt) (r.gcmAad r.esw) (r.slice 8 (r.len - 8))

/-- What `RTCP.DECGCM` makes of the body: the plaintext, if the last 16 bytes are the tag. -/
def Rtcp.openedBody (r : Rtcp) (key salt : Bytes) : Option Bytes :=
  gcmOpen key (r.gcmIv r.esw salt) (r.gcmAad r.esw) (r.slice 8 (r.len - 16 - 8))
    (r.slice (r.len - 16) 16)

/-- The slot that `RTCP.ENCGCM` leaves: ciphertext and tag from offset 8 on, and E set. -/
def Rtcp.sealBody (r : Rtcp) (key salt : Bytes) : Rtcp :=
  ((r.write 8 ((r.bodySeal key salt).1 ++ (r.bodySeal key salt).2)).setLen (r.len + 16)).setEsw
    (r.esw ||| 0x80000000#32)

section
variable (r : Rtcp) (key salt : Bytes)

theorem Rtcp.length_bodySeal :
    (r.bodySeal key salt).1.length = r.len - 8 ∧ (r.bodySeal key salt).2.length = 16 := by
  simp [Rtcp.bodySeal]

theorem Rtcp.end_of_bodySeal (hlen : 8 ≤ r.len) :
    8 + ((r.bodySeal key salt).1 ++ (r.bodySeal key salt).2).length = r.len + 16 := by
  obtain ⟨hcipher, htag⟩ := r.length_bodySeal key salt
  rw [List.length_append, hcipher, htag]
  omega

theorem Rtcp.end_of_openedBody {plain : Bytes} (hroom : 8 + 16 ≤ r.len)
    (h : r.openedBody key salt = some plain) : 8 + plain.length = r.len - 16 := by
  rw [length_gcmOpen h, Rtcp.length_slice]
  omega

theorem Rtcp.encGcm_eq :
    r.encGcm key salt =
      if (key.length ≠ 16 ∧ key.length ≠ 32) ∨ salt.length ≠ 12 then .error .invalidField
      else if 1500 < r.len + 16 + 4 then .error .sizeOverflow
      else .ok (r.sealBody key salt) := by
  simp only [Rtcp.encGcm, badKeySalt_iff, mtu_eq, tagLen_eq, esrtcpLen_eq, Rtcp.gcmIv_setE,
    Rtcp.gcmAad_setE]
  rfl

/-- The checks of R273 on the operands and on the ESRTCP word, all answered alike. -/
theorem Rtcp.badKeySalt_or_noE_iff :
    badKeySalt key salt = true ∨ (!r.esp || !r.e) = true ↔
      (key.length ≠ 16 ∧ key.length ≠ 32) ∨ salt.length ≠ 12 ∨ r.esp = false ∨
        r.esw &&& 0x80000000#32 = 0#32 := by
  rw [badKeySalt_iff, Bool.or_eq_true, Bool.not_eq_true', Bool.not_eq_true', r.e_eq_false_iff,
    or_assoc]

theorem Rtcp.decGcm_eq :
    r.decGcm key salt =
      if (key.length ≠ 16 ∧ key.length ≠ 32) ∨ salt.length ≠ 12 ∨ r.esp = false ∨
          r.esw &&& 0x80000000#32 = 0#32 then .error .invalidField
      else if r.len < 8 + 16 then .error .authFailure
      else (r.openedBody key salt).elim (.error .authFailure)
        fun plain => .ok ((r.write 8 plain).setLen (r.len - 16)) := by
  simp only [← Rtcp.badKeySalt_or_noE_iff, Rtcp.decGcm, ite_or, tagLen_eq]
  rw [← Rtcp.openedBody]
  cases r.openedBody key salt with
  | none => rfl
  | some plain => rfl

end

/-! ## `RTCP.DECGCM` after `RTCP.ENCGCM` (R274) -/

/-- Slot `q` holds the packet of `r`, sealed: with any bytes behind it, and on any instance. -/
structure Rtcp.HoldsSealOf (q r : Rtcp) (key salt : Bytes) : Prop where
  len : q.len = r.len + 16
  esp : q.esp = true
  esw : q.esw = r.esw ||| 0x80000000#32
  packet : q.slice 0 q.len =
    r.slice 0 8 ++ ((r.bodySeal key salt).1 ++ (r.bodySeal key salt).2)

theorem Rtcp.sealBody_holdsSeal {r : Rtcp} (key salt : Bytes) (hlen : 8 ≤ r.len) :
    (r.sealBody key salt).HoldsSealOf r key salt where
  len := rfl
  esp := rfl
  esw := rfl
  packet := by
    have hhead : (r.sealBody key salt).slice 0 8 = r.slice 0 8 :=
      Memory.slice_write_disjoint _ _ _ _ _ (.inl (by omega))
    have hbody := Memory.slice_write_same r.buf 8 _
      ((r.bodySeal key salt).1 ++ (r.bodySeal key salt).2) rfl
    rw [show (r.sealBody key salt).len = _ from (r.end_of_bodySeal key salt hlen).symm,
      Rtcp.slice_add, hhead]
    exact congrArg _ hbody

namespace Rtcp.HoldsSealOf

variable {q r : Rtcp} {key salt : Bytes} (h : q.HoldsSealOf r key salt)
include h

/-- The wire form of a sealed packet loads on any instance, and is the sealed packet there. -/
theorem loads_wire (u : Rtcp) (hmin : 8 ≤ r.len) (hmax : r.len ≤ 1480) :
    ∃ p, u.loads q.wire = .ok p ∧ p.valid = true ∧ p.HoldsSealOf r key salt := by
  have hpacket := q.length_slice 0 q.len
  have hlen := h.len
  have hloads := u.loads_append (packet := q.slice 0 q.len) q.esw (by omega) (by omega)
  refine ⟨_, (congrArg u.loads (if_pos h.esp)).trans hloads, rfl,
    hpacket.trans hlen, rfl, h.esw, ?_⟩
  rw [← h.packet]
  exact Memory.slice_write_same _ _ _ _ rfl

/-- The three parts of a sealed packet: header, ciphertext and tag. -/
theorem parts (hlen : 8 ≤ r.len) :
    q.slice 0 8 = r.slice 0 8 ∧ q.slice 8 (r.len - 8) = (r.bodySeal key salt).1 ∧
      q.slice r.len 16 = (r.bodySeal key salt).2 := by
  have hpacket := h.packet
  rw [h.len, show r.len + 16 = 8 + (r.len - 8 + 16) by omega] at hpacket
  obtain ⟨hhead, hbody⟩ := Rtcp.slice_eq_of_append hpacket (r.length_slice 0 8)
  obtain ⟨hcipher, htag⟩ := Rtcp.slice_eq_of_append hbody (r.length_bodySeal key salt).1
  rw [show 0 + 8 + (r.len - 8) = r.len by omega] at htag
  exact ⟨hhead, hcipher, htag⟩

/-- R325, R326: the sealed body opens to the body. -/
theorem openedBody_eq (hlen : 8 ≤ r.len) :
    q.openedBody key salt = some (r.slice 8 (r.len - 8)) := by
  obtain ⟨hhead, hcipher, htag⟩ := h.parts hlen
  obtain ⟨hiv, haad⟩ := Rtcp.gcmIv_gcmAad_of_header hhead r.esw salt
  rw [Rtcp.openedBody, h.len, Nat.add_sub_cancel, hcipher, htag, h.esw, Rtcp.gcmIv_setE,
    Rtcp.gcmAad_setE, hiv, haad]
  exact gcmOpen_gcmSeal _ _ _ _

/-- Opening the sealed packet with the same operands succeeds and restores the packet. -/
theorem decGcm_restores (hkeys : badKeySalt key salt = false) (hlen : 8 ≤ r.len) :
    ∃ b, q.decGcm key salt = .ok { valid := q.valid, buf := b, len := r.len, esp := true,
                                   esw := r.esw ||| 0x80000000#32 } ∧
      Memory.slice b 0 r.len = Memory.slice r.buf 0 r.len := by
  have he : q.e = true := by
    rw [Rtcp.e, h.esw, BitVec.getLsbD_or]
    exact Bool.or_true _
  have hchecks := (q.badKeySalt_or_noE_iff key salt).not.mp (by simp [hkeys, h.esp, he])
  have hroom : ¬ q.len < 8 + 16 := by
    rw [h.len]
    omega
  set body := r.slice 8 (r.len - 8) with hbody
  refine ⟨Memory.write q.buf 8 body, ?_, ?_⟩
  · rw [Rtcp.decGcm_eq, if_neg hchecks, if_neg hroom, h.openedBody_eq hlen, Option.elim_some,
      h.len, ← h.esp, ← h.esw]
    rfl
  · have hend : 8 + (r.len - 8) = r.len := by omega
    have hlength : r.len - 8 = body.length := (r.length_slice 8 (r.len - 8)).symm
    have hhead : Memory.slice q.buf 0 8 = Memory.slice r.buf 0 8 := (h.parts hlen).1
    rw [← hend, Memory.slice_append, Memory.slice_append,
      Memory.slice_write_disjoint _ _ _ _ _ (.inl (by omega)), hhead]
    exact congrArg _ (Memory.slice_write_same _ _ _ _ hlength)

end Rtcp.HoldsSealOf

end Sys2Proof.Machine
end

section
/-! SUPPORT. The statements of spec/47_aead_rtcp.md. -/

namespace Sys2Proof.Machine

/-- Settles O47: the checks in R272's order, then the body gives way to its seal. -/
theorem rtcpEncGcmSealsTheBody : Obligations.RtcpEncGcmSealsTheBody := by
  intro key salt s
  refine exec_empty_or_loaded_rtcp rfl fun hv => ?_
  have henc := s.rtcp.encGcm_eq key salt
  split_ifs at henc ⊢ with hbad hsize
  · exact perform_editRtcp_error (f := fun r => r.encGcm key salt) hv henc
  · exact perform_editRtcp_error (f := fun r => r.encGcm key salt) hv henc
  · exact ⟨_, perform_editRtcp_ok (f := fun r => r.encGcm key salt) hv henc,
      Memory.patched_write _ _ _, s.rtcp.end_of_bodySeal key salt⟩

/-- Settles O48: the checks in R273's order; the body gives way to the plaintext only where the tag
verified. -/
theorem rtcpDecGcmOpensTheBody : Obligations.RtcpDecGcmOpensTheBody := by
  intro key salt s
  refine exec_empty_or_loaded_rtcp rfl fun hv => ?_
  have hdec := s.rtcp.decGcm_eq key salt
  split_ifs at hdec ⊢ with hbad hroom
  · exact perform_editRtcp_error (f := fun r => r.decGcm key salt) hv hdec
  · exact perform_editRtcp_error (f := fun r => r.decGcm key salt) hv hdec
  split
  · next hopen =>
    rw [show s.rtcp.openedBody key salt = none from hopen] at hdec
    exact perform_editRtcp_error (f := fun r => r.decGcm key salt) hv hdec
  · next plain hopen =>
    rw [show s.rtcp.openedBody key salt = some plain from hopen] at hdec
    exact ⟨_, perform_editRtcp_ok (f := fun r => r.decGcm key salt) hv hdec,
      Memory.patched_write _ _ _, s.rtcp.end_of_openedBody key salt (by omega) hopen⟩

/-- Settles O49: sealing passes its checks and leaves a sealed packet, `RTCP.STORE` and `RTCP.LOADS`
carry it to any instance, and on either one `RTCP.DECGCM` opens it. -/
theorem rtcpAeadRoundTrip : Obligations.RtcpAeadRoundTrip := by
  intro key salt s hv hmin hmax hkey hsalt
  have hkeys : badKeySalt key salt = false := by
    rw [← Bool.not_eq_true, badKeySalt_iff]
    omega
  have henc : s.rtcp.encGcm key salt = .ok (s.rtcp.sealBody key salt) := by
    rw [Rtcp.encGcm_eq, if_neg (by omega), if_neg (by omega)]
  have hseal := Rtcp.sealBody_holdsSeal key salt hmin
  set q := s.rtcp.sealBody key salt
  set t := (s.withRtcp q).respond [0x00#8]
  refine ⟨t, perform_editRtcp_ok (f := fun r => r.encGcm key salt) hv henc, rfl, ?direct,
    q.wire, exec_rtcpStore_loaded (s := t) hv, fun u => ?wire⟩
  case direct =>
    obtain ⟨b, hdec, hslice⟩ := hseal.decGcm_restores hkeys hmin
    exact ⟨b, perform_editRtcp_ok (s := t) (f := fun r => r.decGcm key salt) hv hdec, hslice⟩
  case wire =>
    obtain ⟨p, hloads, hvalid, hloaded⟩ := hseal.loads_wire u.rtcp hmin hmax
    obtain ⟨b, hdec, hslice⟩ := hloaded.decGcm_restores hkeys hmin
    rw [hvalid] at hdec
    exact ⟨_, perform_fillRtcp hloads, b,
      perform_editRtcp_ok (f := fun r => r.decGcm key salt) hvalid hdec, hslice⟩

end Sys2Proof.Machine
end

section
/-! SUPPORT. Counter mode and GCTR, byte by byte, and the statements of
spec/49_crypto_primitives.md. -/

namespace Sys2Proof.Machine

/-! ## Byte `16 j + i` of a key stream (R318, R322) -/

/-- Byte `i` of the `j`-th block of a key stream is that byte of the cipher at the `j`-th counter. -/
theorem keyStream_getElem? (next : Block → Block) (key : Bytes) {n j i : Nat} (hj : j < n)
    (hi : i < 16) (b : Block) :
    (keyStream next key n b)[16 * j + i]? = (bytesOfBlock (aesEnc key (next^[j] b)))[i]? := by
  induction n generalizing j b with
  | zero => omega
  | succ n ih =>
    rw [keyStream]
    cases j with
    | zero => rw [List.getElem?_append_left (by rw [length_bytesOfBlock]; omega)]; simp
    | succ j =>
      rw [List.getElem?_append_right (by rw [length_bytesOfBlock]; omega), length_bytesOfBlock,
        show 16 * (j + 1) + i - 16 = 16 * j + i by omega, ih (by omega), Function.iterate_succ_apply]

/-- R318: the counter of block `j` of CTR. -/
theorem iterate_add_one (b : Block) (j : Nat) :
    (fun b : Block => b + 1#128)^[j] b = b + BitVec.ofNat 128 j := by
  induction j with
  | zero => simp
  | succ j ih => rw [Function.iterate_succ_apply', ih, BitVec.add_assoc, BitVec.ofNat_add]

/-- R322: the counter of block `j` of GCTR, whose first twelve bytes stay. -/
theorem iterate_inc32 (b : Block) (j : Nat) :
    inc32^[j] b = b.extractLsb' 32 96 ++ (b.extractLsb' 0 32 + BitVec.ofNat 32 j) := by
  induction j with
  | zero =>
    rw [Function.iterate_zero_apply, BitVec.add_zero]
    have hsplit : b.extractLsb' 32 96 ++ b.extractLsb' 0 32 = b :=
      (BitVec.extractLsb'_append_extractLsb'_eq_extractLsb' rfl).trans BitVec.extractLsb'_eq_self
    exact hsplit.symm
  | succ j ih =>
    rw [Function.iterate_succ_apply', ih, inc32, BitVec.extractLsb'_append_eq_left,
      BitVec.extractLsb'_append_eq_right, BitVec.add_assoc, BitVec.ofNat_add]

/-- The blocks that `n` bytes need hold byte `16 j + i` when it is one of them. -/
theorem lt_blockCount {n i j : Nat} (h : 16 * j + i < n) : j < blockCount n := by
  have := le_blockCount n
  omega

/-- R322: a byte of GCTR's output is the byte of the input against that of the key stream. -/
theorem gctr_getElem? (key : Bytes) (icb : Block) {xs : Bytes} {i j : Nat} (hi : i < 16)
    (h : 16 * j + i < xs.length) :
    (gctr key icb xs)[16 * j + i]? =
      some (xs.getD (16 * j + i) 0x00#8 ^^^
        (bytesOfBlock (aesEnc key (inc32^[j] icb))).getD i 0x00#8) := by
  have hstream := keyStream_getElem? inc32 key (lt_blockCount h) hi icb
  have hbyte : i < (bytesOfBlock (aesEnc key (inc32^[j] icb))).length := by
    rwa [length_bytesOfBlock]
  rw [List.getElem?_eq_getElem hbyte] at hstream
  rw [gctr, xorBytes, List.getElem?_zipWith, hstream, List.getElem?_eq_getElem h,
    List.getD_eq_getElem _ _ h, List.getD_eq_getElem _ _ hbyte]

/-! ## The statements -/

/-- Settles O42: both modes read the key stream block by block, each under its own counter. -/
theorem counterModeKeyStreams : Obligations.CounterModeKeyStreams := by
  refine ⟨fun key iv n => ⟨length_ctr key iv n, fun i j hi h => ?ctr⟩,
    fun key icb xs => ⟨length_gctr key icb xs, fun i j hi h => ?gctr⟩⟩
  case ctr =>
    rw [ctr, List.getElem?_take_of_lt h, keyStream_getElem? _ _ (lt_blockCount h) hi,
      iterate_add_one]
  case gctr => rw [gctr_getElem? key icb hi h, iterate_inc32]

/-- R326: any tag but the right one releases nothing. -/
theorem gcmOpen_of_ne {key iv aad cipher tag : Bytes} (h : tag ≠ gcmTag key iv aad cipher) :
    gcmOpen key iv aad cipher tag = none :=
  if_neg h.symm

/-- Settles O43. -/
theorem gcmOpenInvertsSeal : Obligations.GcmOpenInvertsSeal := fun key iv aad plain =>
  ⟨length_gcmSeal_fst key iv aad plain, length_gcmSeal_snd key iv aad plain,
    gcmOpen_gcmSeal key iv aad plain, fun _ h => gcmOpen_of_ne h⟩

end Sys2Proof.Machine
end

section
/-! SUPPORT. Why a command can raise a status, said once (`exec_failure`), and the causes of 07 the
other way round. -/

namespace Sys2Proof.Machine

/-! ## What each operation on a unit can raise -/

theorem map_eq_error {α β : Type} {x : Except Status α} {g : α → β} {k : Status}
    (h : x.map g = .error k) : x = .error k := by
  cases x with
  | error e => exact congrArg Except.error (Except.error.inj h)
  | ok a => cases h

/-- The two ways in which a value or a layout does not fit (R341). -/
def Status.IsFieldOrSize (k : Status) : Prop := k = .invalidField ∨ k = .sizeOverflow

theorem isFieldOrSize_invalidField : Status.invalidField.IsFieldOrSize := .inl rfl

theorem isFieldOrSize_sizeOverflow : Status.sizeOverflow.IsFieldOrSize := .inr rfl

section
variable {p : Pkt} {k : Status}

theorem Pkt.new_error {pt : BitVec 8} {seq : BitVec 16} {ts ssrc : BitVec 32} {payload : Bytes}
    (h : p.new pt seq ts ssrc payload = .error k) : k.IsFieldOrSize := by
  unfold Pkt.new at h
  split_ifs at h <;> cases h
  · exact isFieldOrSize_invalidField
  · exact isFieldOrSize_sizeOverflow

theorem Pkt.loadWire_error {data : Bytes} (h : p.loadWire data = .error k) :
    k.IsFieldOrSize := by
  rw [Pkt.loadWire_eq] at h
  split_ifs at h <;> cases h
  · exact isFieldOrSize_sizeOverflow
  · exact isFieldOrSize_invalidField

theorem Pkt.setCc_error {cc : BitVec 8} (h : p.setCc cc = .error k) : k = .invalidField := by
  unfold Pkt.setCc at h
  split_ifs at h
  cases h
  rfl

theorem Pkt.setPt_error {pt : BitVec 8} (h : p.setPt pt = .error k) : k = .invalidField := by
  unfold Pkt.setPt at h
  split_ifs at h
  cases h
  rfl

/-- R162: the one command whose operand alone can be an `IllegalCommand`. -/
theorem Pkt.setCsrc_error {list : Bytes} (h : p.setCsrc list = .error k) :
    k = .invalidField ∨ (k = .illegalCommand ∧ list.length % 4 ≠ 0) := by
  by_cases hmod : list.length % 4 = 0
  · rw [Pkt.setCsrc_eq p hmod] at h
    split_ifs at h
    cases h
    exact .inl rfl
  · rw [Pkt.setCsrc, if_pos hmod] at h
    cases h
    exact .inr ⟨rfl, hmod⟩

theorem Pkt.setHdrExt_error {profile : BitVec 16} {data : Bytes}
    (h : p.setHdrExt profile data = .error k) : k.IsFieldOrSize := by
  rw [Pkt.setHdrExt_eq] at h
  split_ifs at h <;> cases h
  · exact isFieldOrSize_invalidField
  · exact isFieldOrSize_sizeOverflow

theorem Pkt.setPayload_error {data : Bytes} (h : p.setPayload data = .error k) :
    k.IsFieldOrSize := by
  rw [Pkt.setPayload_eq] at h
  split_ifs at h <;> cases h
  · exact isFieldOrSize_invalidField
  · exact isFieldOrSize_sizeOverflow

theorem Pkt.setPadding_error {m : Nat} (h : p.setPadding m = .error k) : k.IsFieldOrSize := by
  by_cases hm : m = 0
  · rw [Pkt.setPadding, if_pos hm] at h
    cases h
    exact isFieldOrSize_invalidField
  by_cases hr : p.len % m = 0
  · rw [Pkt.setPadding_of_aligned hm hr] at h
    cases h
  rw [Pkt.setPadding_eq p hm hr] at h
  split_ifs at h <;> cases h
  · exact isFieldOrSize_invalidField
  · exact isFieldOrSize_sizeOverflow

theorem Pkt.setGenExt_error {id : BitVec 8} {data : Bytes} (h : p.setGenExt id data = .error k) :
    k = .invalidField ∨ k = .notImplemented := by
  rw [Pkt.setGenExt_eq] at h
  split_ifs at h <;> cases h
  · exact .inl rfl
  · exact .inl rfl
  · exact .inr rfl
  · exact .inl rfl

theorem Pkt.setVol_error {volId : Option (BitVec 8)} {vad : Bool} {dbov : Int}
    (h : p.setVol volId vad dbov = .error k) : k = .invalidField ∨ k = .notImplemented := by
  unfold Pkt.setVol at h
  split_ifs at h
  · cases h
    exact .inl rfl
  · cases volId with
    | none => cases h; exact .inl rfl
    | some id => exact Pkt.setGenExt_error h

theorem Pkt.setOhb_error {pt : BitVec 8} {seq : BitVec 16} {m : Bool}
    (h : p.setOhb pt seq m = .error k) : k.IsFieldOrSize := by
  rw [Pkt.setOhb_eq] at h
  split_ifs at h <;> cases h
  · exact isFieldOrSize_invalidField
  · exact isFieldOrSize_sizeOverflow

theorem Pkt.encGcm_error {roc : BitVec 32} {key salt : Bytes}
    (h : p.encGcm roc key salt = .error k) : k.IsFieldOrSize := by
  rw [Pkt.encGcm_eq] at h
  split_ifs at h <;> cases h
  · exact isFieldOrSize_invalidField
  · exact isFieldOrSize_sizeOverflow

theorem Pkt.decGcm_error {roc : BitVec 32} {key salt : Bytes}
    (h : p.decGcm roc key salt = .error k) : k = .invalidField ∨ k = .authFailure := by
  rw [Pkt.decGcm_eq] at h
  split_ifs at h
  · cases h; exact .inl rfl
  · cases h; exact .inr rfl
  · cases hopen : p.openedPayload roc key salt with
    | none => rw [hopen] at h; cases h; exact .inr rfl
    | some plain => rw [hopen] at h; cases h

theorem Pkt.getPayload_error (h : p.getPayload = .error k) : k = .invalidField := by
  unfold Pkt.getPayload at h
  split_ifs at h
  cases h
  rfl

theorem Pkt.getCsrc_error (h : p.getCsrc = .error k) : k = .invalidField := by
  unfold Pkt.getCsrc at h
  split_ifs at h
  cases h
  rfl

theorem Pkt.getGenExt_error {id : BitVec 8} (h : p.getGenExt id = .error k) :
    k = .invalidField := by
  rw [Pkt.getGenExt_eq] at h
  split_ifs at h
  cases h
  rfl

theorem Pkt.getOhb_error (h : p.getOhb = .error k) : k = .invalidField := by
  rw [Pkt.getOhb_eq] at h
  split_ifs at h
  cases h
  rfl

end

section
variable {r : Rtcp} {k : Status}

theorem Rtcp.load_error {data : Bytes} (h : r.load data = .error k) : k.IsFieldOrSize := by
  rw [Rtcp.load_eq] at h
  split_ifs at h <;> cases h
  · exact isFieldOrSize_sizeOverflow
  · exact isFieldOrSize_invalidField

theorem Rtcp.loads_error {data : Bytes} (h : r.loads data = .error k) : k.IsFieldOrSize := by
  rw [Rtcp.loads_eq] at h
  split_ifs at h <;> cases h
  · exact isFieldOrSize_sizeOverflow
  · exact isFieldOrSize_invalidField

theorem Rtcp.setIndex_error {index : BitVec 32} (h : r.setIndex index = .error k) :
    k.IsFieldOrSize := by
  rw [Rtcp.setIndex_eq] at h
  split_ifs at h <;> cases h
  · exact isFieldOrSize_invalidField
  · exact isFieldOrSize_sizeOverflow

theorem Rtcp.setE_error {e : Bool} (h : r.setE e = .error k) : k.IsFieldOrSize := by
  rw [Rtcp.setE_eq] at h
  by_cases hroom : r.esp = false ∧ 1500 < r.len + 4
  · rw [if_pos hroom] at h
    cases h
    exact isFieldOrSize_sizeOverflow
  · rw [if_neg hroom] at h
    cases h

theorem Rtcp.encGcm_error {key salt : Bytes} (h : r.encGcm key salt = .error k) :
    k.IsFieldOrSize := by
  rw [Rtcp.encGcm_eq] at h
  split_ifs at h <;> cases h
  · exact isFieldOrSize_invalidField
  · exact isFieldOrSize_sizeOverflow

theorem Rtcp.decGcm_error {key salt : Bytes} (h : r.decGcm key salt = .error k) :
    k = .invalidField ∨ k = .authFailure := by
  rw [Rtcp.decGcm_eq] at h
  split_ifs at h
  · cases h; exact .inl rfl
  · cases h; exact .inr rfl
  · cases hopen : r.openedBody key salt with
    | none => rw [hopen] at h; cases h; exact .inr rfl
    | some plain => rw [hopen] at h; cases h

end

section
variable {m : Kdf} {k : Status}

theorem Kdf.init_error {key salt : Bytes} (h : m.init key salt = .error k) :
    k = .invalidField := by
  rw [Kdf.init_eq] at h
  split_ifs at h
  cases h
  rfl

theorem Kdf.derive_error {label index size : Nat} (h : m.derive label index size = .error k) :
    (k = .illegalCommand ∧ m.valid = false) ∨ k = .invalidField := by
  rw [Kdf.derive_eq] at h
  split_ifs at h with hv <;> cases h
  · exact .inl ⟨rfl, hv⟩
  · exact .inr rfl

theorem Kdf.deriveStream_error {cipher : BitVec 16} (h : m.deriveStream cipher = .error k) :
    (k = .illegalCommand ∧ m.valid = false) ∨ k = .unsupportedCipher := by
  rw [Kdf.deriveStream_eq] at h
  split_ifs at h with hv <;> cases h
  · exact .inl ⟨rfl, hv⟩
  · exact .inr rfl

/-- R241: an installed master key is valid. -/
theorem Kdf.init_valid {q : Kdf} {key salt : Bytes} (h : m.init key salt = .ok q) :
    q.valid = true := by
  rw [Kdf.init_eq] at h
  split_ifs at h
  cases h
  rfl

end

theorem ektSplit_error {wire : Bytes} {k : Status} (h : ektSplit wire = .error k) :
    k = .malformedEkt := by
  unfold ektSplit at h
  dsimp only at h
  split_ifs at h <;> cases h <;> rfl

theorem Ses.encodePkt_error {e : Ses} {p : Pkt} {k : Status} (h : e.encodePkt p = .error k) :
    k.IsFieldOrSize := by
  unfold Ses.encodePkt at h
  split at h
  · next hohb => cases h; exact Pkt.setOhb_error hohb
  · split at h
    · next hseal => cases h; exact Pkt.encGcm_error hseal
    · cases h

theorem Ses.decodePkt_error {e : Ses} {p : Pkt} {packet : Bytes} {k : Status}
    (h : e.decodePkt p packet = .error k) : k = .invalidField ∨ k = .authFailure := by
  unfold Ses.decodePkt at h
  split at h
  · next hopen => cases h; exact Pkt.decGcm_error hopen
  · split at h
    · next hohb => cases h; exact .inl (Pkt.getOhb_error hohb)
    · cases h

/-! ## What each command can raise -/

/-- Why command `i` can end with status `k` in state `s`: R342 for 07, R346 for the others. -/
inductive Failure (s : State) : Instr → Status → Prop
  | emptyPkt {i : Instr} (hi : needsRtpPacket i = true) (hv : s.pkt.valid = false) :
      Failure s i .illegalCommand
  | emptyRtcp {i : Instr} (hi : needsRtcpPacket i = true) (hv : s.rtcp.valid = false) :
      Failure s i .illegalCommand
  | noMasterKey {i : Instr} (hi : needsMasterKey i = true) (hv : s.kdf.valid = false) :
      Failure s i .illegalCommand
  | encodeEmpty (hc : s.ses.cipher ≠ 0x0000#16) (hv : s.pkt.valid = false) :
      Failure s .sesEncode .illegalCommand
  | encRtcpEmpty (hc : s.ses.cipher ≠ 0x0000#16) (hv : s.rtcp.valid = false) :
      Failure s .sesEncRtcp .illegalCommand
  | keyed {cipher : BitVec 16} {useEkt : Bool} {key salt : Bytes} (hs : s.ses.state = .keyed) :
      Failure s (.sesSetSrtp cipher useEkt key salt) .illegalCommand
  | raggedCsrc {list : Bytes} (hmod : list.length % 4 ≠ 0) :
      Failure s (.rtpSetCsrc list) .illegalCommand
  | invalidField {i : Instr} : Failure s i .invalidField
  | sizeOverflow {i : Instr} (hi : readsOnly i = false) : Failure s i .sizeOverflow
  | unsupportedCipher {i : Instr} (hi : usesCipher i = true) : Failure s i .unsupportedCipher
  | authFailure {i : Instr} (hi : decrypts i = true) : Failure s i .authFailure
  | malformedEkt {wire : Bytes} (hekt : s.ses.useEkt = true) :
      Failure s (.sesDecode wire) .malformedEkt
  | manyElements {id : BitVec 8} {data : Bytes} : Failure s (.rtpSetGenExt id data) .notImplemented
  | manyElementsVol {vad : Bool} {dbov : Int} : Failure s (.rtpSetVol vad dbov) .notImplemented

section
variable {s : State} {i : Instr} {k : Status}

theorem Status.IsFieldOrSize.failure (hk : k.IsFieldOrSize) (hi : readsOnly i = false) :
    Failure s i k := by
  rcases hk with rfl | rfl
  · exact .invalidField
  · exact .sizeOverflow hi

theorem failure_of_invalidField (hk : k = .invalidField) : Failure s i k := hk ▸ .invalidField

theorem failure_of_decrypts (hi : decrypts i = true) (hk : k = .invalidField ∨ k = .authFailure) :
    Failure s i k := by
  rcases hk with rfl | rfl
  · exact .invalidField
  · exact .authFailure hi

/-- Every status with which command `i` can end in `s`, when its outcome is `o`, has its reason. -/
def FailsFor (s : State) (i : Instr) (o : Host.Outcome State Fault Refusal) : Prop :=
  ∀ k : Status, o = .next (s.respond [k.code]) → Failure s i k

theorem Status.code_inj {k k' : Status} (h : k.code = k'.code) : k = k' := by
  cases k <;> cases k' <;> simp [Status.code] at h ⊢

theorem Status.code_ne_ok (k : Status) : k.code ≠ 0x00#8 := by
  cases k <;> decide

/-- A command that answered one status byte raised that status. -/
theorem perform_failed {r : Result} (h : perform s r = .next (s.respond [k.code])) :
    r = .error k := by
  rcases perform_cases h with ⟨k', hr, hk⟩ | ⟨u, results, -, hu⟩
  · rw [hr, Status.code_inj (List.head_eq_of_cons_eq (State.respond_inj hk))]
  · have hlast := congrArg (fun t : State => t.responses.getLast?) hu
    simp only [State.respond_responses, List.getLast?_concat, Option.some.injEq] at hlast
    exact absurd (List.head_eq_of_cons_eq hlast) k.code_ne_ok

theorem failsFor_perform {r : Result} (h : ∀ k, r = .error k → Failure s i k) :
    FailsFor s i (perform s r) :=
  fun k hk => h k (perform_failed hk)

/-- A rule that computes a value and then says what it writes and answers. -/
theorem failsFor_map {α : Type} {x : Except Status α} {g : α → State × List Operand}
    (h : ∀ k, x = .error k → Failure s i k) : FailsFor s i (perform s (x.map g)) :=
  failsFor_perform fun k hk => h k (map_eq_error hk)

/-- A rule that checks nothing. -/
theorem failsFor_ok {t : State} {results : List Operand} :
    FailsFor s i (perform s (.ok (t, results))) :=
  failsFor_perform fun _ hk => nomatch hk

theorem failsFor_readPkt {f : Pkt → Except Status (List Operand)}
    (hi : needsRtpPacket i = true) (hf : ∀ k, f s.pkt = .error k → k = .invalidField) :
    FailsFor s i (perform s (s.readPkt f)) := by
  cases hv : s.pkt.valid with
  | false =>
    rw [State.readPkt_empty hv]
    exact failsFor_perform fun k hk => by cases hk; exact .emptyPkt hi hv
  | true =>
    rw [State.readPkt_loaded hv]
    exact failsFor_map fun k hk => failure_of_invalidField (hf k hk)

theorem failsFor_editPkt {f : Pkt → Except Status Pkt} (hi : needsRtpPacket i = true)
    (hf : ∀ k, f s.pkt = .error k → Failure s i k) : FailsFor s i (perform s (s.editPkt f)) := by
  cases hv : s.pkt.valid with
  | false =>
    rw [State.editPkt_empty hv]
    exact failsFor_perform fun k hk => by cases hk; exact .emptyPkt hi hv
  | true =>
    rw [State.editPkt_loaded hv]
    exact failsFor_map hf

/-- A getter that reads one value. -/
theorem failsFor_readRtcp {get : Rtcp → List Operand} (hi : needsRtcpPacket i = true) :
    FailsFor s i (perform s (s.readRtcp fun r => .ok (get r))) := by
  cases hv : s.rtcp.valid with
  | false =>
    rw [State.readRtcp_empty hv]
    exact failsFor_perform fun k hk => by cases hk; exact .emptyRtcp hi hv
  | true =>
    rw [State.readRtcp_loaded hv]
    exact failsFor_ok

theorem failsFor_editRtcp {f : Rtcp → Except Status Rtcp} (hi : needsRtcpPacket i = true)
    (hf : ∀ k, f s.rtcp = .error k → Failure s i k) :
    FailsFor s i (perform s (s.editRtcp f)) := by
  cases hv : s.rtcp.valid with
  | false =>
    rw [State.editRtcp_empty hv]
    exact failsFor_perform fun k hk => by cases hk; exact .emptyRtcp hi hv
  | true =>
    rw [State.editRtcp_loaded hv]
    exact failsFor_map hf

theorem failsFor_rtpGetHdrExt : FailsFor s .rtpGetHdrExt (execRtpGetHdrExt s) := by
  refine failsFor_readPkt rfl fun k hk => ?_
  split_ifs at hk
  cases hk
  rfl

theorem failsFor_rtpGetVol : FailsFor s .rtpGetVol (execRtpGetVol s) := by
  refine failsFor_readPkt rfl fun k hk => ?_
  split at hk
  · cases hk
  · exact Pkt.getGenExt_error (map_eq_error hk)

theorem failsFor_kdfDerive (label : BitVec 8) (index : BitVec 48) (size : BitVec 16) :
    FailsFor s (.kdfDerive label index size) (execKdfDerive label index size s) := by
  refine failsFor_map fun k hk => ?_
  rcases Kdf.derive_error hk with ⟨rfl, hv⟩ | rfl
  · exact .noMasterKey rfl hv
  · exact .invalidField

theorem failsFor_kdfDeriveStream (cipher : BitVec 16) :
    FailsFor s (.kdfDeriveStream cipher) (execKdfDeriveStream cipher s) := by
  refine failsFor_map fun k hk => ?_
  rcases Kdf.deriveStream_error hk with ⟨rfl, hv⟩ | rfl
  · exact .noMasterKey rfl hv
  · exact .unsupportedCipher rfl

theorem failsFor_setSrtp (cipher : BitVec 16) (useEkt : Bool) (key salt : Bytes) :
    FailsFor s (.sesSetSrtp cipher useEkt key salt) (execSesSetSrtp cipher useEkt key salt s) := by
  refine failsFor_perform fun k hk => ?_
  unfold State.setSrtp at hk
  split_ifs at hk with hs
  · cases hk
    exact .keyed hs
  split at hk
  · next hinit => cases hk; exact failure_of_invalidField (Kdf.init_error hinit)
  next kdf hinit =>
  split at hk
  · next hderive =>
    cases hk
    rcases Kdf.deriveStream_error hderive with ⟨-, hv⟩ | rfl
    · exact absurd (Kdf.init_valid hinit) (by simp [hv])
    · exact .unsupportedCipher rfl
  · cases hk

theorem failsFor_setExtMap (id : BitVec 8) (uri : Bytes) :
    FailsFor s (.sesSetExtMap id uri) (execSesSetExtMap id uri s) := by
  refine failsFor_perform fun k hk => ?_
  split_ifs at hk <;> cases hk
  · exact .invalidField
  · exact .invalidField

theorem failsFor_encode : FailsFor s .sesEncode (execSesEncode s) := by
  refine failsFor_perform fun k hk => ?_
  unfold State.encode at hk
  split at hk
  · cases hk; exact .unsupportedCipher rfl
  next hc =>
  split at hk
  · next hv => cases hk; exact .encodeEmpty hc (by simpa using hv)
  split at hk
  · cases hk; exact .invalidField
  split at hk
  · cases hk; exact .sizeOverflow rfl
  split at hk
  · next hw => cases hk; exact (Ses.encodePkt_error hw).failure rfl
  · cases hk

theorem failsFor_decode (wire : Bytes) : FailsFor s (.sesDecode wire) (execSesDecode wire s) := by
  refine failsFor_perform fun k hk => ?_
  unfold State.decode at hk
  split at hk
  · cases hk; exact .unsupportedCipher rfl
  split at hk
  · cases hk; exact .sizeOverflow rfl
  split at hk
  · next hsplit =>
    cases hk
    split_ifs at hsplit with hekt
    rw [ektSplit_error hsplit]
    exact .malformedEkt hekt
  dsimp only at hk
  split at hk
  · cases hk; exact .invalidField
  split at hk
  · next hq => cases hk; exact failure_of_decrypts rfl (Ses.decodePkt_error hq)
  · cases hk

theorem failsFor_encRtcp : FailsFor s .sesEncRtcp (execSesEncRtcp s) := by
  refine failsFor_perform fun k hk => ?_
  unfold State.encRtcp at hk
  split_ifs at hk with hc hv
  · cases hk; exact .unsupportedCipher rfl
  · cases hk; exact .encRtcpEmpty hc (by simpa using hv)
  · split at hk
    · next hr => cases hk; exact (Rtcp.encGcm_error hr).failure rfl
    · cases hk

theorem failsFor_decRtcp (wire : Bytes) :
    FailsFor s (.sesDecRtcp wire) (execSesDecRtcp wire s) := by
  refine failsFor_perform fun k hk => ?_
  unfold State.decRtcp at hk
  split_ifs at hk with hc
  · cases hk; exact .unsupportedCipher rfl
  split at hk
  · next hl => cases hk; exact (Rtcp.loads_error hl).failure rfl
  split at hk
  · next hr => cases hk; exact failure_of_decrypts rfl (Rtcp.decGcm_error hr)
  · cases hk

/-- Every command that can end with a status in a state has its reason to. -/
theorem exec_failsFor (i : Instr) (s : State) : FailsFor s i (exec i s) := by
  cases i with
  | rtpStore | rtpGetP | rtpGetX | rtpGetCc | rtpGetM | rtpGetPt | rtpGetSeq | rtpGetTs
  | rtpGetSsrc | rtpGetOhbLen => exact failsFor_readPkt rfl nofun
  | rtpGetPayload => exact failsFor_readPkt rfl fun _ hk => Pkt.getPayload_error (map_eq_error hk)
  | rtpGetCsrc => exact failsFor_readPkt rfl fun _ hk => Pkt.getCsrc_error (map_eq_error hk)
  | rtpGetHdrExt => exact failsFor_rtpGetHdrExt
  | rtpGetGenExt => exact failsFor_readPkt rfl fun _ hk => Pkt.getGenExt_error (map_eq_error hk)
  | rtpGetVol => exact failsFor_rtpGetVol
  | rtpGetOhb => exact failsFor_readPkt rfl fun _ hk => Pkt.getOhb_error (map_eq_error hk)
  | rtcpStore | rtcpGetPt | rtcpGetLenW | rtcpGetLenB | rtcpGetSsrc | rtcpGetIndex
  | rtcpGetE => exact failsFor_readRtcp rfl
  | rtpNew => exact failsFor_map fun _ hk => (Pkt.new_error hk).failure rfl
  | rtpLoad => exact failsFor_map fun _ hk => (Pkt.loadWire_error hk).failure rfl
  | rtpSetP | rtpSetX | rtpSetM | rtpSetSeq | rtpSetTs | rtpSetSsrc =>
    exact failsFor_editPkt rfl nofun
  | rtpSetCc =>
    exact failsFor_editPkt rfl fun _ hk => failure_of_invalidField (Pkt.setCc_error hk)
  | rtpSetPt =>
    exact failsFor_editPkt rfl fun _ hk => failure_of_invalidField (Pkt.setPt_error hk)
  | rtpSetCsrc =>
    refine failsFor_editPkt rfl fun _ hk => ?_
    rcases Pkt.setCsrc_error hk with rfl | ⟨rfl, hmod⟩
    · exact .invalidField
    · exact .raggedCsrc hmod
  | rtpSetHdrExt => exact failsFor_editPkt rfl fun _ hk => (Pkt.setHdrExt_error hk).failure rfl
  | rtpSetPayload => exact failsFor_editPkt rfl fun _ hk => (Pkt.setPayload_error hk).failure rfl
  | rtpSetPadding => exact failsFor_editPkt rfl fun _ hk => (Pkt.setPadding_error hk).failure rfl
  | rtpSetGenExt =>
    refine failsFor_editPkt rfl fun _ hk => ?_
    rcases Pkt.setGenExt_error hk with rfl | rfl
    · exact .invalidField
    · exact .manyElements
  | rtpSetVol =>
    refine failsFor_editPkt rfl fun _ hk => ?_
    rcases Pkt.setVol_error hk with rfl | rfl
    · exact .invalidField
    · exact .manyElementsVol
  | rtpSetOhb => exact failsFor_editPkt rfl fun _ hk => (Pkt.setOhb_error hk).failure rfl
  | rtpEncGcm => exact failsFor_editPkt rfl fun _ hk => (Pkt.encGcm_error hk).failure rfl
  | rtpDecGcm =>
    exact failsFor_editPkt rfl fun _ hk => failure_of_decrypts rfl (Pkt.decGcm_error hk)
  | rtcpLoad => exact failsFor_map fun _ hk => (Rtcp.load_error hk).failure rfl
  | rtcpLoads => exact failsFor_map fun _ hk => (Rtcp.loads_error hk).failure rfl
  | rtcpSetPt | rtcpSetLenW | rtcpSetSsrc => exact failsFor_editRtcp rfl nofun
  | rtcpSetIndex => exact failsFor_editRtcp rfl fun _ hk => (Rtcp.setIndex_error hk).failure rfl
  | rtcpSetE => exact failsFor_editRtcp rfl fun _ hk => (Rtcp.setE_error hk).failure rfl
  | rtcpEncGcm => exact failsFor_editRtcp rfl fun _ hk => (Rtcp.encGcm_error hk).failure rfl
  | rtcpDecGcm =>
    exact failsFor_editRtcp rfl fun _ hk => failure_of_decrypts rfl (Rtcp.decGcm_error hk)
  | kdfInit => exact failsFor_map fun _ hk => failure_of_invalidField (Kdf.init_error hk)
  | kdfDerive label index size => exact failsFor_kdfDerive label index size
  | kdfDeriveStream cipher => exact failsFor_kdfDeriveStream cipher
  | sesSetSrtp cipher useEkt key salt => exact failsFor_setSrtp cipher useEkt key salt
  | sesSetExtMap id uri => exact failsFor_setExtMap id uri
  | sesSetRewrite | sesSetSeq | sesGetSeq | sesGetRoc => exact failsFor_ok
  | sesEncode => exact failsFor_encode
  | sesDecode wire => exact failsFor_decode wire
  | sesEncRtcp => exact failsFor_encRtcp
  | sesDecRtcp wire => exact failsFor_decRtcp wire

theorem exec_failure (h : exec i s = .next (s.respond [k.code])) : Failure s i k :=
  exec_failsFor i s k h

/-- R106, R340: a response that does not begin with 00 is one status byte, and nothing else was
added. -/
theorem exec_failed {t : State} {b : Byte} {results : Bytes} (h : exec i s = .next t)
    (hresponse : t.responses = s.responses ++ [b :: results]) (hb : b ≠ 0x00#8) :
    ∃ k : Status, b = k.code ∧ results = [] ∧ t = s.respond [k.code] := by
  rcases exec_cases h with ⟨k, rfl⟩ | ⟨u, values, heff, rfl⟩
  · rw [State.respond_responses, List.append_cancel_left_eq] at hresponse
    obtain ⟨rfl, rfl⟩ := List.cons.inj (List.head_eq_of_cons_eq hresponse)
    exact ⟨k, rfl, rfl, rfl⟩
  · obtain ⟨-, -, hsame⟩ := heff.streams
    rw [State.respond_responses, hsame, List.append_cancel_left_eq] at hresponse
    exact absurd (List.head_eq_of_cons_eq (List.head_eq_of_cons_eq hresponse)).symm hb

end

/-! ## The causes of 07 (R342) -/

/-- R244, R247: without an installed master key nothing is derived. -/
theorem exec_of_no_master_key {i : Instr} {s : State} (hi : needsMasterKey i = true)
    (hv : s.kdf.valid = false) : exec i s = .next (s.respond [0x07#8]) := by
  cases i with
  | kdfDerive label index size =>
    exact perform_map_error ((s.kdf.derive_eq _ _ _).trans (if_pos hv))
  | kdfDeriveStream cipher => exact perform_map_error ((s.kdf.deriveStream_eq _).trans (if_pos hv))
  | _ => cases hi

theorem exec_sesEncode_empty {s : State} (hc : s.ses.cipher ≠ 0x0000#16)
    (hv : s.pkt.valid = false) : exec .sesEncode s = .next (s.respond [0x07#8]) := by
  show perform s s.encode = _
  rw [State.encode, if_neg hc, if_pos (by simp [hv])]
  rfl

theorem exec_sesEncRtcp_empty {s : State} (hc : s.ses.cipher ≠ 0x0000#16)
    (hv : s.rtcp.valid = false) : exec .sesEncRtcp s = .next (s.respond [0x07#8]) := by
  show perform s s.encRtcp = _
  rw [State.encRtcp, if_neg hc, if_pos (by simp [hv])]
  rfl

theorem exec_sesSetSrtp_keyed {s : State} (hs : s.ses.state = .keyed) (cipher : BitVec 16)
    (useEkt : Bool) (key salt : Bytes) :
    exec (.sesSetSrtp cipher useEkt key salt) s = .next (s.respond [0x07#8]) := by
  show perform s (s.setSrtp cipher useEkt key salt) = _
  rw [State.setSrtp, if_pos hs]
  rfl

/-- R162: a list that is no whole number of entries is refused, with or without a packet. -/
theorem exec_rtpSetCsrc_ragged {list : Bytes} (s : State) (hmod : list.length % 4 ≠ 0) :
    exec (.rtpSetCsrc list) s = .next (s.respond [0x07#8]) := by
  cases hv : s.pkt.valid with
  | false => exact exec_of_empty_slot rfl hv
  | true => exact perform_editPkt_error (f := fun p => p.setCsrc list) hv (if_pos hmod)

/-! ## The statements -/

/-- Settles O10: a response that does not begin with 00 is all that the command added. -/
theorem failedCommandChangesNothing : Obligations.FailedCommandChangesNothing := by
  intro i s t k results h hresponse hk
  obtain ⟨status, -, hresults, rfl⟩ := exec_failed h hresponse hk
  exact ⟨hresults, rfl, rfl, rfl, rfl⟩

/-- Settles O11: a command that answers a status has a reason to, and each reason but the field check
belongs to its own commands. -/
theorem statusesOfEachKindOfCommand : Obligations.StatusesOfEachKindOfCommand := by
  intro i s t b h hresponse
  have reason (k : Status) (hb : b = k.code) : Failure s i k := by
    obtain ⟨k', hk', -, rfl⟩ := exec_failed h hresponse (hb ▸ k.code_ne_ok)
    rw [Status.code_inj (hb.symm.trans hk')]
    exact exec_failure h
  refine ⟨fun hb => ?malformed, fun hb => ?notImplemented, fun hb => ?auth, fun hb => ?cipher,
    fun hb => ?size⟩
  case malformed =>
    cases reason .malformedEkt hb with
    | malformedEkt hekt => exact ⟨⟨_, rfl⟩, hekt⟩
  case notImplemented =>
    cases reason .notImplemented hb with
    | manyElements => exact .inl ⟨_, _, rfl⟩
    | manyElementsVol => exact .inr ⟨_, _, rfl⟩
  case auth =>
    cases reason .authFailure hb with
    | authFailure hi => exact hi
  case cipher =>
    cases reason .unsupportedCipher hb with
    | unsupportedCipher hi => exact hi
  case size =>
    cases reason .sizeOverflow hb with
    | sizeOverflow hi => exact hi

/-- Settles O12: the reasons for 07 are the listed causes, and each cause is answered so. -/
theorem illegalCommandHasExactlyTheseCauses : Obligations.IllegalCommandHasExactlyTheseCauses := by
  refine ⟨fun s d e rest hd hin => step_refused hin hd, fun i s => ⟨fun h => ?causes, ?answered⟩⟩
  case causes =>
    cases exec_failure (k := .illegalCommand) h with
    | emptyPkt hi hv => exact .inl ⟨hi, hv⟩
    | encodeEmpty hc hv => exact .inr (.inl ⟨rfl, hc, hv⟩)
    | emptyRtcp hi hv => exact .inr (.inr (.inl ⟨hi, hv⟩))
    | encRtcpEmpty hc hv => exact .inr (.inr (.inr (.inl ⟨rfl, hc, hv⟩)))
    | noMasterKey hi hv => exact .inr (.inr (.inr (.inr (.inl ⟨hi, hv⟩))))
    | keyed hs => exact .inr (.inr (.inr (.inr (.inr (.inl ⟨⟨_, _, _, _, rfl⟩, hs⟩)))))
    | raggedCsrc hmod => exact .inr (.inr (.inr (.inr (.inr (.inr ⟨_, rfl, hmod⟩)))))
  case answered =>
    rintro (⟨hi, hv⟩ | ⟨rfl, hc, hv⟩ | ⟨hi, hv⟩ | ⟨rfl, hc, hv⟩ | ⟨hi, hv⟩ |
      ⟨⟨cipher, useEkt, key, salt, rfl⟩, hs⟩ | ⟨list, rfl, hmod⟩)
    · exact exec_of_empty_slot hi hv
    · exact exec_sesEncode_empty hc hv
    · exact exec_of_empty_rtcp hi hv
    · exact exec_sesEncRtcp_empty hc hv
    · exact exec_of_no_master_key hi hv
    · exact exec_sesSetSrtp_keyed hs cipher useEkt key salt
    · exact exec_rtpSetCsrc_ragged s hmod

end Sys2Proof.Machine
end

section
/-! SUPPORT. The machine just after reset, and the statements of spec/70_reset_and_hazards.md. -/

namespace Sys2Proof.Machine

/-! ## The reset values (R370, R371) -/

/-- R33: whatever a reset draws has 15 bits. -/
theorem Ses.reset_seq_lt (n : Nat) : (Ses.reset n).seq.toNat < 0x8000 := by
  have hdraw : (Config.seq0 n).toNat < 2 ^ 15 := (Config.seq0 n).isLt
  rw [Ses.reset, BitVec.toNat_setWidth]
  omega

/-- Units at their reset columns make a state at reset, whatever the streams hold. -/
theorem State.atReset_of_units {s : State} {n : Nat} (hpkt : s.pkt = Pkt.reset)
    (hrtcp : s.rtcp = Rtcp.reset) (hkdf : s.kdf = Kdf.reset) (hses : s.ses = Ses.reset n) :
    s.AtReset := by
  have hseq := Ses.reset_seq_lt n
  rw [← hses] at hseq
  unfold State.AtReset
  rw [hpkt, hrtcp, hkdf, hses] at *
  exact ⟨⟨rfl, rfl, rfl⟩, ⟨rfl, rfl⟩, ⟨rfl, rfl⟩, ⟨rfl, rfl⟩, ⟨rfl, rfl⟩, ⟨rfl, rfl⟩, ⟨rfl, rfl⟩,
    ⟨hseq, rfl, rfl⟩, rfl⟩

/-! ## The session while Fresh (R372) -/

/-- R345: the four session transforms check the cipher first. -/
theorem exec_transform_of_no_cipher {i : Instr} {s : State} (hi : opcodeIn i 0x74 0x77 = true)
    (hc : s.ses.cipher = 0x0000#16) : exec i s = .next (s.respond [0x04#8]) := by
  cases i with
  | sesEncode => exact congrArg (perform s) (if_pos hc)
  | sesDecode wire => exact congrArg (perform s) (if_pos hc)
  | sesEncRtcp => exact congrArg (perform s) (if_pos hc)
  | sesDecRtcp wire => exact congrArg (perform s) (if_pos hc)
  | _ => cases hi

theorem exec_sesGetRoc (s : State) :
    exec .sesGetRoc s = .next (s.respond (0x00#8 :: beBytes 4 s.ses.roc.toNat)) := by
  show perform s (.ok (s, [.u32 s.ses.roc])) = _
  rw [perform_ok, encodeOperands_singleton]
  rfl

theorem exec_sesGetSeq (s : State) :
    exec .sesGetSeq s = .next (s.respond (0x00#8 :: beBytes 2 s.ses.seq.toNat)) := by
  show perform s (.ok (s, [.u16 s.ses.seq])) = _
  rw [perform_ok, encodeOperands_singleton]
  rfl

/-- R184: an empty extension map names no audio level. -/
theorem Ses.volId_of_empty_map {e : Ses} (h : e.extMap = List.replicate 14 []) :
    e.volId = none := by
  rw [Ses.volId, h]
  rfl

/-! ## The statements -/

/-- Settles O7: both the state after reset and a later reset signal put every unit at its reset
column. -/
theorem resetGivesTheResetValues : Obligations.ResetGivesTheResetValues :=
  ⟨State.atReset_of_units rfl rfl rfl rfl, fun _ _ hin =>
    ⟨_, step_reset hin, State.atReset_of_units rfl rfl rfl rfl, rfl, rfl⟩⟩

/-- Settles O8: the three units are empty, the session has no cipher, and its map has no URI. -/
theorem commandsJustAfterReset : Obligations.CommandsJustAfterReset := by
  intro s hs
  obtain ⟨⟨hpkt, hrtcp, hkdf⟩, -, -, -, -, ⟨-, hcipher⟩, -, ⟨hseq, hroc, -⟩, hmap⟩ := hs
  refine ⟨?empty, fun i hi => exec_transform_of_no_cipher hi hcipher, ?roc,
    ⟨s.ses.seq, hseq, exec_sesGetSeq s⟩, ?volume⟩
  case empty =>
    rintro i (hi | hi | hi)
    · exact exec_of_empty_slot hi hpkt
    · exact exec_of_empty_rtcp hi hrtcp
    · exact exec_of_no_master_key hi hkdf
  case roc =>
    rw [exec_sesGetRoc, hroc]
    rfl
  case volume =>
    intro pt seq ts ssrc payload hpt hlen
    have hnew := (s.pkt.new_of_size (pt := pt) (payload := payload) seq ts ssrc (by omega)).trans
      (if_neg (by omega))
    exact ⟨_, perform_map_ok hnew, rfl,
      exec_rtpGetVol_unmapped (by rfl) (Ses.volId_of_empty_map hmap)⟩

end Sys2Proof.Machine
end

section
/-! SUPPORT. The session's configuration commands and its counters: the statements of
spec/48_session.md on R281 to R286. -/

namespace Sys2Proof.Machine

/-! ## `SES.SETSRTP` (R281) -/

/-- R247 with a master key installed: 16 bytes of key for the one cipher, 32 for the other. -/
theorem Kdf.deriveStream_of_valid {k : Kdf} (hv : k.valid = true) (cipher : BitVec 16) :
    k.deriveStream cipher =
      if cipher ≠ 0x0007#16 ∧ cipher ≠ 0x0008#16 then .error .unsupportedCipher
      else .ok (k.streamKeys (if cipher = 0x0007#16 then 16 else 32)) := by
  rw [Kdf.deriveStream_eq, if_neg (by simp [hv])]
  by_cases h7 : cipher = 0x0007#16
  · subst h7; rfl
  by_cases h8 : cipher = 0x0008#16
  · subst h8; rfl
  · rw [if_neg h7, if_neg h8, if_pos ⟨h7, h8⟩]

/-- R281 on a Fresh session, past `KDF.INIT`: the cipher's keys are derived and installed. -/
theorem State.setSrtp_of_init {s : State} {k : Kdf} {key salt : Bytes} (hs : s.ses.state ≠ .keyed)
    (hk : s.kdf.init key salt = .ok k) (cipher : BitVec 16) (useEkt : Bool) :
    s.setSrtp cipher useEkt key salt = (k.deriveStream cipher).map fun d =>
      ((s.withKdf k).withSes (s.ses.install cipher useEkt d), []) := by
  simp only [State.setSrtp, if_neg hs, hk]
  cases k.deriveStream cipher <;> rfl

/-- R281, R31: the session's registers hold the derived keys at their start, and the salts. -/
theorem Ses.install_streamKeys (e : Ses) (cipher : BitVec 16) (useEkt : Bool) (k : Kdf) (n : Nat) :
    e.install cipher useEkt (k.streamKeys n) =
      { e with
        state := .keyed, cipher := cipher, useEkt := useEkt, klen := n,
        rtpKey := k.prf 0 0 n ++ e.rtpKey.drop n, rtcpKey := k.prf 3 0 n ++ e.rtcpKey.drop n,
        rtpSalt := k.prf 2 0 12, rtcpSalt := k.prf 5 0 12 } := by
  simp only [Ses.install, Kdf.streamKeys, overwrite, length_prf]

/-! ## `SES.SETEXTMAP` and `VOL_ID` (R282, R184) -/

theorem exec_sesSetExtMap_eq (id : BitVec 8) (uri : Bytes) (s : State) :
    exec (.sesSetExtMap id uri) s =
      if id.toNat < 1 ∨ 14 < id.toNat ∨ uri.length < 1 ∨ 255 < uri.length then
        .next (s.respond [0x02#8])
      else .next ((s.withSes (s.ses.mapUri id.toNat uri)).respond [0x00#8]) := by
  have hchecks : (badExtId id = true ∨ uri.length < 1 ∨ Config.uriMax < uri.length) ↔
      (id.toNat < 1 ∨ 14 < id.toNat ∨ uri.length < 1 ∨ 255 < uri.length) := by
    rw [badExtId_iff, uriMax_eq, or_assoc]
  show perform s _ = _
  simp only [← hchecks, ite_or]
  split_ifs <;> rfl

/-- R282: the slot of the id holds the URI, another slot that held it is empty, the rest stay. -/
theorem Ses.mapUri_slot (e : Ses) {id : Nat} {uri : Bytes} (hmin : 1 ≤ id) {j : Nat}
    (hj : j < e.extMap.length) :
    (e.mapUri id uri).extMap.getD j [] =
      if j + 1 = id then uri
      else if e.extMap.getD j [] = uri then [] else e.extMap.getD j [] := by
  have hlen : j < (e.mapUri id uri).extMap.length := by simpa [Ses.mapUri] using hj
  rw [List.getD_eq_getElem _ _ hlen, List.getD_eq_getElem _ _ hj]
  simp only [Ses.mapUri, List.getElem_set, List.getElem_map]
  by_cases h : j + 1 = id
  · rw [if_pos h, if_pos (by omega)]
  · rw [if_neg h, if_neg (by omega)]

/-- R184: `VOL_ID` is the one slot that holds the audio-level URI. -/
theorem Ses.volId_eq_some {e : Ses} {id : BitVec 8} (hmin : 1 ≤ id.toNat)
    (hmax : id.toNat ≤ e.extMap.length)
    (hslot : e.extMap.getD (id.toNat - 1) [] = Config.audioLevelUri)
    (hothers : ∀ j, j < e.extMap.length → j + 1 ≠ id.toNat →
      e.extMap.getD j [] ≠ Config.audioLevelUri) : e.volId = some id := by
  have hfind : e.extMap.findIdx? (fun uri => uri == Config.audioLevelUri) =
      some (id.toNat - 1) := by
    refine List.findIdx?_eq_some_iff_getElem.mpr ⟨by omega, ?_, fun j hj => ?_⟩
    · rw [← List.getD_eq_getElem _ []]
      exact beq_iff_eq.mpr hslot
    · rw [← List.getD_eq_getElem _ [], beq_iff_eq]
      exact hothers j (by omega) (by omega)
  rw [Ses.volId, hfind, Option.map_some, Nat.sub_add_cancel hmin, BitVec.ofNat_toNat,
    BitVec.setWidth_eq]

/-! ## `SES.ROC` (R286) -/

/-- Only an encode with rewriting that wraps `SES.SEQ` has an effect on `SES.ROC`. -/
theorem Effect.ses_roc {s u : State} {i : Instr} {results : List Operand}
    (h : Effect s i u results) :
    u.ses.roc = s.ses.roc ∨
      i = .sesEncode ∧ s.ses.rewrite = true ∧ s.ses.seq + 1#16 = 0#16 ∧ u.ses = s.ses.advance := by
  cases h with
  | encode =>
    rw [State.withSes_ses]
    by_cases hrewrite : s.ses.rewrite = true
    · rw [if_pos hrewrite, Ses.advance_roc]
      by_cases hwrap : s.ses.seq + 1#16 = 0#16
      · exact .inr ⟨rfl, hrewrite, hwrap, rfl⟩
      · exact .inl (if_neg hwrap)
    · rw [if_neg hrewrite]
      exact .inl rfl
  | _ => exact .inl rfl

theorem exec_ses_roc {i : Instr} {s t : State} (h : exec i s = .next t)
    (hroc : t.ses.roc ≠ s.ses.roc) :
    i = .sesEncode ∧ s.ses.rewrite = true ∧ s.ses.seq + 1#16 = 0#16 ∧ t.ses = s.ses.advance := by
  rcases exec_cases h with ⟨k, rfl⟩ | ⟨u, results, heff, rfl⟩
  · exact absurd rfl hroc
  · exact heff.ses_roc.resolve_left hroc

/-! ## The statements -/

/-- Settles O52: R281's checks in order, then the KDF unit and the session are written. -/
theorem setSrtpInstallsTheSession : Obligations.SetSrtpInstallsTheSession := by
  intro cipher useEkt key salt s i klen k
  have hexec : exec i s = perform s (s.setSrtp cipher useEkt key salt) := rfl
  by_cases hs : s.ses.state = .keyed
  · rw [if_pos hs]
    exact exec_sesSetSrtp_keyed hs cipher useEkt key salt
  rw [if_neg hs, hexec, ← Ses.install_streamKeys]
  have hinit := s.kdf.init_eq key salt
  by_cases hbad : (key.length ≠ 16 ∧ key.length ≠ 32) ∨ 14 < salt.length
  · rw [if_pos hbad] at hinit ⊢
    rw [State.setSrtp, if_neg hs, hinit]
    rfl
  rw [if_neg hbad] at hinit ⊢
  have hderive := Kdf.deriveStream_of_valid (k := k) rfl cipher
  rw [State.setSrtp_of_init hs hinit]
  by_cases hcipher : cipher ≠ 0x0007#16 ∧ cipher ≠ 0x0008#16
  · rw [if_pos hcipher] at hderive ⊢
    exact perform_map_error hderive
  · rw [if_neg hcipher] at hderive ⊢
    exact perform_map_ok hderive

/-- Settles O53: R282's checks, then the map slot by slot; only the slot of the id holds the URI. -/
theorem setExtMapMovesTheUri : Obligations.SetExtMapMovesTheUri := by
  intro id uri s hmap
  rw [exec_sesSetExtMap_eq]
  by_cases hbad : id.toNat < 1 ∨ 14 < id.toNat ∨ uri.length < 1 ∨ 255 < uri.length
  · rw [if_pos hbad, if_pos hbad]
  rw [if_neg hbad, if_neg hbad]
  set e := s.ses.mapUri id.toNat uri with he
  have hlen : e.extMap.length = 14 := by simpa [he, Ses.mapUri] using hmap
  have hslots (j : Nat) (hj : j < 14) := s.ses.mapUri_slot (id := id.toNat) (uri := uri)
    (by omega) (j := j) (by omega)
  refine ⟨e.extMap, rfl, hlen, hslots, fun huri => ?_⟩
  refine Ses.volId_eq_some (e := e) (by omega) (by omega) ?_ fun j hj hne => ?_
  · rw [hslots _ (by omega), if_pos (by omega), huri]
  · rw [hslots _ (by omega), if_neg hne, ← huri]
    split
    · rintro rfl
      simp at hbad
    · assumption

/-- Settles O54. -/
theorem sequenceRegisters : Obligations.SequenceRegisters := by
  refine fun on seq s => ⟨rfl, rfl, ?_⟩
  rw [exec_sesGetSeq, beBytes_two]

/-- Settles O16: of the things a step does, only a reset and `Effect.ses_roc` touch `SES.ROC`. -/
theorem rolloverCounterChangesOnlyByEncode : Obligations.RolloverCounterChangesOnlyByEncode := by
  refine ⟨exec_sesGetRoc, fun s t h hroc => ?_⟩
  rcases step_cases h with ⟨-, rfl⟩ | ⟨rest, hin, -⟩ | ⟨d, e, rest, -, -, rfl⟩ |
    ⟨d, i, rest, hin, hd, hexec⟩
  · exact absurd rfl hroc
  · exact .inl ⟨rest, hin⟩
  · exact absurd rfl hroc
  · obtain ⟨rfl, hrewrite, hwrap, hses⟩ := exec_ses_roc hexec hroc
    have hwrap : s.ses.seq + 1#16 = 0#16 := hwrap
    refine .inr ⟨⟨d, rest, hin, hd⟩, hrewrite, by bv_omega, ?_, ?_⟩
    · rw [hses]
      exact hwrap
    · rw [hses]
      exact if_pos hwrap

end Sys2Proof.Machine
end

section
/-! SUPPORT. The live bytes of the packet slot: what they are after each operation, and that the
layout, the AEAD input and the OHB are read from them alone (R25, R160). -/

namespace Sys2Proof.Machine

/-! ## Slices of a store -/

/-- A part of a slice. -/
theorem Memory.slice_eq_drop_take (m : Memory) {a n len : Nat} (h : a + n ≤ len) :
    Memory.slice m a n = ((Memory.slice m 0 len).drop a).take n := by
  obtain ⟨rest, rfl⟩ := Nat.exists_eq_add_of_le h
  rw [Nat.add_assoc, Memory.slice_append, List.drop_left' (by simp), Nat.zero_add,
    Memory.slice_append, List.take_left' (by simp)]

/-- The bytes of equal slices are equal. -/
theorem Memory.read_eq_of_slice_eq {b m : Memory} {n i : Nat}
    (h : Memory.slice b 0 n = Memory.slice m 0 n) (hi : i < n) :
    Memory.read b i = Memory.read m i := by
  have hget := List.getElem_of_eq h (i := i) (by rwa [Memory.length_slice])
  rwa [Memory.getElem_slice, Memory.getElem_slice, Nat.zero_add] at hget

/-- A store that holds `bs` from its start and reads as before behind it. -/
theorem Memory.patched_of_slice {b m : Memory} {bs : Bytes}
    (hslice : Memory.slice b 0 bs.length = bs)
    (hbehind : ∀ i, bs.length ≤ i → Memory.read b i = Memory.read m i) :
    Memory.patched b m 0 bs := by
  intro i
  by_cases hi : i < bs.length
  · have hget := List.getElem_of_eq hslice (i := i) (by rwa [Memory.length_slice])
    rw [Memory.getElem_slice, Nat.zero_add] at hget
    rw [if_pos ⟨Nat.zero_le i, by omega⟩, Nat.sub_zero, List.getD_eq_getElem bs 0x00#8 hi, hget]
  · rw [if_neg (by omega), hbehind i (by omega)]

/-! ## The live bytes after each operation -/

section
variable (p : Pkt)

@[simp] theorem Pkt.length_bytes : p.bytes.length = p.len := Memory.length_slice _ _ _

theorem Pkt.slice_add (a n k : Nat) : p.slice a (n + k) = p.slice a n ++ p.slice (a + n) k :=
  Memory.slice_append _ _ _ _

theorem Pkt.slice_eq_bytes {a n : Nat} (h : a + n ≤ p.len) :
    p.slice a n = (p.bytes.drop a).take n :=
  Memory.slice_eq_drop_take _ h

@[simp] theorem Pkt.bytes_load (data : Bytes) : (p.load data).bytes = data :=
  Memory.slice_write_same _ _ _ _ rfl

theorem Pkt.slice_write_of_disjoint {a k n : Nat} {bs : Bytes}
    (h : k + n ≤ a ∨ a + bs.length ≤ k) : (p.write a bs).slice k n = p.slice k n :=
  Memory.slice_write_disjoint _ _ _ _ _ h

@[simp] theorem Pkt.bytes_append (bs : Bytes) : (p.append bs).bytes = p.bytes ++ bs := by
  have hbefore : (p.append bs).slice 0 p.len = p.bytes :=
    Memory.slice_write_disjoint _ _ _ _ _ (.inl (by omega))
  have hbehind : (p.append bs).slice p.len bs.length = bs := Memory.slice_write_same _ _ _ _ rfl
  rw [Pkt.bytes, Pkt.append_len, Pkt.slice_add, hbefore, Nat.zero_add, hbehind]

theorem Pkt.bytes_replacePayload (bs : Bytes) :
    (p.replacePayload bs).bytes = p.slice 0 p.payOff ++ bs :=
  (p.setLen p.payOff).bytes_append bs

/-- R146: bytes 2 and 3 are SEQ. -/
theorem Pkt.slice_setSeq (v : BitVec 16) {n : Nat} (h : 4 ≤ n) :
    (p.setSeq v).slice 0 n = p.slice 0 2 ++ beBytes 2 v.toNat ++ p.slice 4 (n - 4) := by
  have hseq : (p.setSeq v).slice 2 2 = beBytes 2 v.toNat :=
    Memory.slice_write_same _ _ _ _ (length_beBytes 2 v.toNat).symm
  obtain ⟨k, rfl⟩ := Nat.exists_eq_add_of_le h
  rw [show 4 + k = 2 + 2 + k from rfl, Pkt.slice_add, Pkt.slice_add, Nat.zero_add, hseq,
    Nat.add_sub_cancel_left, Pkt.setSeq, p.slice_write_of_disjoint (.inl (by omega)),
    p.slice_write_of_disjoint (.inr (by simp))]

/-- R290 step 4: the first bytes of the header are rewritten and the OHB is cut off. -/
theorem Pkt.bytes_restore (pt : BitVec 8) (seq : BitVec 16) (m : Bool)
    (h : 4 ≤ p.len - ohbLength p.ohbLast) :
    (p.restore pt seq m).bytes =
      p.slice 0 1 ++ [bitAt m 7 ||| pt] ++ beBytes 2 seq.toNat ++
        p.slice 4 (p.len - ohbLength p.ohbLast - 4) := by
  have hoctet : (p.write 1 [bitAt m 7 ||| pt]).slice 1 1 = [bitAt m 7 ||| pt] :=
    Memory.slice_write_same _ _ _ _ rfl
  rw [Pkt.bytes, Pkt.restore, Pkt.setLen_len]
  show ((p.write 1 [bitAt m 7 ||| pt]).setSeq seq).slice 0 _ = _
  rw [Pkt.slice_setSeq _ _ h, show 2 = 1 + 1 from rfl, Pkt.slice_add, hoctet,
    p.slice_write_of_disjoint (.inl (by omega)), p.slice_write_of_disjoint (.inr (by simp))]

/-! ## Writes inside the fixed header -/

/-- A write of header bytes behind octet 0 leaves the layout. -/
theorem Pkt.write_layout {a : Nat} {bs : Bytes} (ha : 1 ≤ a) (hb : a + bs.length ≤ 12) :
    (p.write a bs).badPay = p.badPay ∧ (p.write a bs).payOff = p.payOff := by
  have hx : (p.write a bs).x = p.x :=
    Operand.bool.inj (HdrField.value_write_of_disjoint (f := .x) p (.inl ha))
  have hoff : (p.write a bs).extOff = p.extOff :=
    Pkt.extOff_eq_of_cc
      (Operand.u8.inj (HdrField.value_write_of_disjoint (f := .cc) p (.inl ha)))
  have h12 := p.le_extOff
  have hwords : (p.write a bs).extWords = p.extWords := by
    rw [Pkt.extWords_eq_octets, Pkt.extWords_eq_octets, hoff,
      Pkt.write_octet_of_not_mem (.inr (by omega)), Pkt.write_octet_of_not_mem (.inr (by omega))]
  have hpay : (p.write a bs).payOff = p.payOff := by
    rw [Pkt.payOff, Pkt.payOff, hx, hoff, hwords]
  refine ⟨?_, hpay⟩
  rw [Pkt.badPay, Pkt.badPay, Pkt.badExtHdr, Pkt.badExtHdr, hx, hoff, hpay, Pkt.write_len]

end

/-! ## What is read from the live bytes alone -/

section
variable {p q : Pkt} (h : p.bytes = q.bytes)
include h

theorem Pkt.len_eq_of_bytes : p.len = q.len := by
  rw [← p.length_bytes, h, q.length_bytes]

theorem Pkt.slice_eq_of_bytes {a n : Nat} (hn : a + n ≤ p.len) : p.slice a n = q.slice a n := by
  rw [p.slice_eq_bytes hn, q.slice_eq_bytes (Pkt.len_eq_of_bytes h ▸ hn), h]

theorem Pkt.octet_eq_of_bytes {i : Nat} (hi : i < p.len) : p.octet i = q.octet i := by
  have hlen := Pkt.len_eq_of_bytes h
  unfold Pkt.bytes at h
  rw [← hlen] at h
  exact Memory.read_eq_of_slice_eq h hi

theorem Pkt.field_eq_of_bytes (f : HdrField) (h12 : 12 ≤ p.len) : f.value p = f.value q :=
  HdrField.value_congr fun _ _ => Pkt.octet_eq_of_bytes h (by have := f.end_le_twelve; omega)

theorem Pkt.layout_eq_of_bytes (h12 : 12 ≤ p.len) :
    p.badPay = q.badPay ∧ (p.badPay = false → p.payOff = q.payOff) := by
  have hlen := Pkt.len_eq_of_bytes h
  have hx : p.x = q.x := Operand.bool.inj (Pkt.field_eq_of_bytes h .x h12)
  have hoff : p.extOff = q.extOff :=
    Pkt.extOff_eq_of_cc (Operand.u8.inj (Pkt.field_eq_of_bytes h .cc h12))
  by_cases hshort : p.x = true ∧ p.len < p.extOff + 4
  · have hbad : p.badPay = true := (badPay_iff p).mpr (.inl hshort)
    rw [hx, hlen, hoff] at hshort
    exact ⟨hbad.trans ((badPay_iff q).mpr (.inl hshort)).symm, fun hgood => by simp [hbad] at hgood⟩
  · have hpay : p.payOff = q.payOff := by
      rw [Pkt.payOff, Pkt.payOff, ← hx, ← hoff]
      split
      · next hext =>
        have hroom : ¬ p.len < p.extOff + 4 := fun hlt => hshort ⟨hext, hlt⟩
        rw [Pkt.extWords_eq_octets, Pkt.extWords_eq_octets, ← hoff,
          Pkt.octet_eq_of_bytes h (by omega), Pkt.octet_eq_of_bytes h (by omega)]
      · rfl
    refine ⟨?_, fun _ => hpay⟩
    rw [Pkt.badPay, Pkt.badPay, Pkt.badExtHdr, Pkt.badExtHdr, hx, hoff, hpay, hlen]

theorem Pkt.openedPayload_eq_of_bytes (hgood : p.badPay = false) (h12 : 12 ≤ p.len)
    (roc : BitVec 32) (key salt : Bytes) (hroom : p.payOff + 16 ≤ p.len) :
    p.openedPayload roc key salt = q.openedPayload roc key salt := by
  have hlen := Pkt.len_eq_of_bytes h
  have hpay := (Pkt.layout_eq_of_bytes h h12).2 hgood
  rw [Pkt.openedPayload, Pkt.openedPayload, Pkt.gcmIv, Pkt.gcmIv, ← hlen, ← hpay,
    Pkt.slice_eq_of_bytes h (a := 8) (by omega), Pkt.slice_eq_of_bytes h (a := 2) (by omega),
    Pkt.slice_eq_of_bytes h (a := 0) (by omega),
    Pkt.slice_eq_of_bytes h (a := p.payOff) (by omega),
    Pkt.slice_eq_of_bytes h (a := p.len - 16) (by omega)]

/-- R203: an OHB that fits lies behind the header, and the header fields it leaves out in it. -/
theorem Pkt.getOhb_eq_of_bytes (h12 : 12 ≤ p.len) : p.getOhb = q.getOhb := by
  have hlen := Pkt.len_eq_of_bytes h
  obtain ⟨hbad, hpay⟩ := Pkt.layout_eq_of_bytes h h12
  cases hgood : p.badPay with
  | true => rw [Pkt.getOhb, Pkt.getOhb, if_pos hgood, if_pos (hbad ▸ hgood)]
  | false =>
    have hlast : p.ohbLast = q.ohbLast := by
      rw [Pkt.ohbLast, Pkt.ohbLast, ← hlen, Pkt.octet_eq_of_bytes h (by omega)]
    have hm : p.ohbM = q.ohbM := by
      have hfield : p.m = q.m := Operand.bool.inj (Pkt.field_eq_of_bytes h .m h12)
      rw [Pkt.ohbM, Pkt.ohbM, hlast, hfield]
    have hseqOff : p.ohbSeqOff = q.ohbSeqOff := by
      rw [Pkt.ohbSeqOff, Pkt.ohbSeqOff, hlast, hlen]
    have hptOff : p.ohbPtOff = q.ohbPtOff := by
      rw [Pkt.ohbPtOff, Pkt.ohbPtOff, hlast, hlen]
    have hseqEnd : p.ohbSeqOff + 2 ≤ p.len := by unfold Pkt.ohbSeqOff; split <;> omega
    have hptEnd : p.ohbPtOff < p.len := by unfold Pkt.ohbPtOff; split_ifs <;> omega
    have hseq : Memory.slice p.buf p.ohbSeqOff 2 = Memory.slice q.buf p.ohbSeqOff 2 :=
      Pkt.slice_eq_of_bytes h hseqEnd
    have hfits : ((p.x = true ∧ p.len < p.extOff + 4) ∨ p.len < p.payOff ∨
          p.len - p.payOff < ohbLength p.ohbLast) ↔
        ((q.x = true ∧ q.len < q.extOff + 4) ∨ q.len < q.payOff ∨
          q.len - q.payOff < ohbLength q.ohbLast) := by
      rw [← or_assoc, ← or_assoc, ← badPay_iff, ← badPay_iff, hbad, hlen, hpay hgood, hlast]
    rw [Pkt.getOhb_eq, Pkt.getOhb_eq, Pkt.octet_eq_of_bytes h hptEnd, Memory.readBE, Memory.readBE,
      hseq, hm, hseqOff, hptOff, if_congr hfits rfl rfl]

end

/-- R202: the last live byte. -/
theorem Pkt.ohbLast_eq_getD {p : Pkt} (h : 1 ≤ p.len) :
    p.ohbLast = p.bytes.getD (p.len - 1) 0x00#8 := by
  rw [List.getD_eq_getElem _ _ (by rw [Pkt.length_bytes]; omega)]
  exact ((Memory.getElem_slice _ _ _ _ _).trans (by rw [Nat.zero_add]; rfl)).symm

end Sys2Proof.Machine
end

section
/-! SUPPORT. The session's RTCP transforms and the statements of spec/48_session.md on R292 to
R294. -/

namespace Sys2Proof.Machine

/-! ## The session's keys (R31, R245) -/

/-- R31: a session with a cipher is Keyed, so its keys and salts pass `CHK_KS`. -/
theorem Ses.Inv.keys_fit {e : Ses} (h : e.Inv) (hc : e.cipher ≠ 0x0000#16) :
    badKeySalt e.liveRtpKey e.rtpSalt = false ∧ badKeySalt e.liveRtcpKey e.rtcpSalt = false := by
  obtain ⟨⟨hrtpKey, hrtcpKey, hrtpSalt, hrtcpSalt⟩, hfresh, hkeyed, -⟩ := h
  have hklen : e.klen = 16 ∨ e.klen = 32 := by
    cases hs : e.state with
    | fresh => exact absurd (hfresh hs) hc
    | keyed => exact (hkeyed hs).imp And.right And.right
  have hrtpLen : e.liveRtpKey.length = 16 ∨ e.liveRtpKey.length = 32 := by
    rw [Ses.liveRtpKey, List.length_take, hrtpKey]
    omega
  have hrtcpLen : e.liveRtcpKey.length = 16 ∨ e.liveRtcpKey.length = 32 := by
    rw [Ses.liveRtcpKey, List.length_take, hrtcpKey]
    omega
  simp only [← Bool.not_eq_true, badKeySalt_iff]
  omega

/-! ## A slot that `RTCP.LOADS` has filled (R212) -/

/-- The copy on which `SES.DECRTCP` works: the packet bytes of `wire`, and its last four as the
ESRTCP word. -/
def Rtcp.loadCopy (r : Rtcp) (wire : Bytes) : Rtcp :=
  { valid := true, buf := Memory.write r.buf 0 (wire.take (wire.length - 4)),
    len := wire.length - 4, esp := true,
    esw := BitVec.ofNat 32 (beNat (wire.drop (wire.length - 4))) }

theorem Rtcp.loads_of_size (r : Rtcp) {wire : Bytes} (hmax : ¬ 1500 < wire.length)
    (hmin : ¬ wire.length < 12) : r.loads wire = .ok (r.loadCopy wire) := by
  rw [Rtcp.loads_eq, if_neg hmax, if_neg hmin]
  rfl

section
variable (r : Rtcp) {wire : Bytes}

@[simp] theorem Rtcp.loadCopy_esp : (r.loadCopy wire).esp = true := rfl
@[simp] theorem Rtcp.loadCopy_len : (r.loadCopy wire).len = wire.length - 4 := rfl
@[simp] theorem Rtcp.loadCopy_esw :
    (r.loadCopy wire).esw = BitVec.ofNat 32 (beNat (wire.drop (wire.length - 4))) := rfl

/-- The bytes of the copy are those of the wire. -/
theorem Rtcp.slice_loadCopy {a n : Nat} (h : a + n ≤ wire.length - 4) :
    (r.loadCopy wire).slice a n = (wire.drop a).take n := by
  have hread := Memory.slice_write_part r.buf 0 a n (wire.take (wire.length - 4))
    (by rw [List.length_take]; omega)
  rw [Nat.zero_add, List.drop_take, List.take_take, Nat.min_eq_left (by omega)] at hread
  exact hread

/-- R95: the last four bytes of the wire are those of the word. -/
theorem Rtcp.beBytes_loadCopy_esw (h4 : 4 ≤ wire.length) :
    beBytes 4 (r.loadCopy wire).esw.toNat = wire.drop (wire.length - 4) :=
  beBytes_ofNat_beNat (by rw [List.length_drop]; omega) rfl

end

/-- Setting E where it is set changes nothing. -/
theorem setE_of_e {w : BitVec 32} (h : w &&& 0x80000000#32 ≠ 0#32) : w ||| 0x80000000#32 = w := by
  have hbit : w.getLsbD 31 = true := by
    rw [show (0x80000000#32 : BitVec 32) = BitVec.twoPow 32 31 from rfl, BitVec.and_twoPow] at h
    by_contra hclear
    exact h (if_neg hclear)
  apply BitVec.eq_of_getLsbD_eq
  intro j _
  rw [BitVec.getLsbD_or, show (0x80000000#32 : BitVec 32) = BitVec.twoPow 32 31 from rfl,
    BitVec.getLsbD_twoPow]
  by_cases hj : 31 = j
  · rw [← hj, hbit, Bool.true_or]
  · simp [hj]

/-- R273 on the copy, for a session's keys: E is set, there is room for a tag, the tag verifies. -/
theorem Rtcp.decGcm_loadCopy (r : Rtcp) {wire key salt : Bytes}
    (hkeys : badKeySalt key salt = false) :
    (r.loadCopy wire).decGcm key salt =
      if (r.loadCopy wire).esw &&& 0x80000000#32 = 0#32 then .error .invalidField
      else if wire.length - 4 < 8 + 16 then .error .authFailure
      else ((r.loadCopy wire).openedBody key salt).elim (.error .authFailure)
        fun plain => .ok (((r.loadCopy wire).write 8 plain).setLen (wire.length - 4 - 16)) := by
  have hchecks : badKeySalt key salt = true ∨ (!(r.loadCopy wire).esp || !(r.loadCopy wire).e) =
      true ↔ (r.loadCopy wire).esw &&& 0x80000000#32 = 0#32 := by
    rw [← Rtcp.e_eq_false_iff]
    simp [hkeys]
  rw [Rtcp.decGcm_eq,
    if_congr ((Rtcp.badKeySalt_or_noE_iff _ key salt).symm.trans hchecks) rfl rfl]
  rfl

/-- R294: what `RTCP.DECGCM` opens in the copy, read off the wire. -/
theorem Rtcp.openedBody_loadCopy (r : Rtcp) {wire : Bytes} (key salt : Bytes)
    (hlen : 8 + 16 ≤ wire.length - 4)
    (he : (r.loadCopy wire).esw &&& 0x80000000#32 ≠ 0#32) :
    (r.loadCopy wire).openedBody key salt =
      gcmOpen key (xorBytes ([0x00#8, 0x00#8] ++ (wire.drop 4).take 4 ++ [0x00#8, 0x00#8] ++
          beBytes 4 ((r.loadCopy wire).esw &&& 0x7FFFFFFF#32).toNat) salt)
        (wire.take 8 ++ wire.drop (wire.length - 4))
        ((wire.drop 8).take (wire.length - 4 - 16 - 8))
        ((wire.drop (wire.length - 4 - 16)).take 16) := by
  rw [Rtcp.openedBody, Rtcp.gcmIv, Rtcp.gcmAad, setE_of_e he,
    r.beBytes_loadCopy_esw (by omega), r.slice_loadCopy (by omega), r.slice_loadCopy (by omega),
    r.loadCopy_len, r.slice_loadCopy (by omega), r.slice_loadCopy (by omega)]
  rfl

/-! ## How the session's RTCP transforms end (R293, R294) -/

section
variable {s : State}

theorem exec_sesEncRtcp_of_cipher (hc : s.ses.cipher ≠ 0x0000#16) (hv : s.rtcp.valid = true) :
    exec .sesEncRtcp s = perform s ((s.rtcp.encGcm s.ses.liveRtcpKey s.ses.rtcpSalt).map
      fun r => (s.withRtcp r, [.bytes r.wire])) := by
  show perform s s.encRtcp = _
  rw [State.encRtcp, if_neg hc, if_neg (by simp [hv])]
  cases s.rtcp.encGcm s.ses.liveRtcpKey s.ses.rtcpSalt <;> rfl

theorem exec_sesDecRtcp_of_loads_error {wire : Bytes} {k : Status}
    (hc : s.ses.cipher ≠ 0x0000#16) (hl : s.rtcp.loads wire = .error k) :
    exec (.sesDecRtcp wire) s = .next (s.respond [k.code]) := by
  show perform s (s.decRtcp wire) = _
  rw [State.decRtcp, if_neg hc, hl]
  rfl

theorem exec_sesDecRtcp_of_loads {wire : Bytes} {copy : Rtcp} (hc : s.ses.cipher ≠ 0x0000#16)
    (hl : s.rtcp.loads wire = .ok copy) :
    exec (.sesDecRtcp wire) s = perform s
      ((copy.decGcm s.ses.liveRtcpKey s.ses.rtcpSalt).map fun r => (s.withRtcp r, [])) := by
  show perform s (s.decRtcp wire) = _
  simp only [State.decRtcp, if_neg hc, hl]
  cases copy.decGcm s.ses.liveRtcpKey s.ses.rtcpSalt <;> rfl

end

/-! ## The statements -/

/-- Settles O59: past the checks the slot holds the seal of its packet, whose wire form any instance
loads and opens. -/
theorem sesEncRtcpAndRoundTrip : Obligations.SesEncRtcpAndRoundTrip := by
  intro s hs r e w iv sealed body wire
  by_cases hc : e.cipher = 0x0000#16
  · rw [if_pos hc]
    exact exec_transform_of_no_cipher rfl hc
  rw [if_neg hc]
  by_cases hempty : r.valid = false
  · rw [if_pos hempty]
    exact exec_sesEncRtcp_empty hc hempty
  rw [if_neg hempty]
  have hv : r.valid = true := by simpa using hempty
  obtain ⟨-, hrtcp, -, hses⟩ := hs
  have hkeys : badKeySalt e.liveRtcpKey e.rtcpSalt = false := (hses.keys_fit hc).2
  have henc := r.encGcm_eq e.liveRtcpKey e.rtcpSalt
  rw [if_neg ((badKeySalt_iff _ _).not.mp (by simp [hkeys]))] at henc
  by_cases hsize : 1500 < r.len + 16 + 4
  · rw [if_pos hsize] at henc ⊢
    rw [exec_sesEncRtcp_of_cipher hc hv]
    exact perform_map_error henc
  rw [if_neg hsize] at henc ⊢
  have hmin : 8 ≤ r.len := (Rtcp.Loaded.len_bounds ⟨hv, hrtcp⟩).1
  have hseal := Rtcp.sealBody_holdsSeal e.liveRtcpKey e.rtcpSalt hmin
  have hend := r.end_of_bodySeal e.liveRtcpKey e.rtcpSalt hmin
  set q := r.sealBody e.liveRtcpKey e.rtcpSalt with hq
  have hbody : q.slice 0 (r.len + 16) = body :=
    hseal.packet.trans (List.append_assoc _ _ _).symm
  have hlen : body.length = r.len + 16 := by rw [← hbody, Rtcp.length_slice]
  have hwire : q.wire = wire := congrArg (· ++ beBytes 4 w.toNat) hbody
  refine ⟨⟨q.buf, ?answer, hlen, ?bytes⟩, fun u hcipher hkey hklen hsalt => ?opened⟩
  case answer =>
    rw [exec_sesEncRtcp_of_cipher hc hv, ← hwire]
    exact perform_map_ok henc
  case bytes =>
    refine Memory.patched_of_slice (hlen.symm ▸ hbody) fun i hi => ?_
    exact Memory.read_write_of_not_mem (.inr (by omega))
  case opened =>
    obtain ⟨copy, hloads, hvalid, hcopy⟩ := hseal.loads_wire u.rtcp hmin (by omega)
    obtain ⟨b, hdec, hslice⟩ := hcopy.decGcm_restores hkeys hmin
    rw [hwire] at hloads
    have hlive : u.ses.liveRtcpKey = e.liveRtcpKey := by
      rw [Ses.liveRtcpKey, hkey, hklen, Ses.liveRtcpKey]
    refine ⟨b, ?_, hslice⟩
    rw [exec_sesDecRtcp_of_loads (hcipher ▸ hc) hloads, hlive, hsalt]
    rw [hvalid] at hdec
    exact perform_map_ok hdec

/-- Settles O60: the checks of R212 and R273 on the copy, then the copy becomes the slot. -/
theorem sesDecRtcpOpensTheWirePacket : Obligations.SesDecRtcpOpensTheWirePacket := by
  intro wire s hs e i n esw iv
  by_cases hc : e.cipher = 0x0000#16
  · rw [if_pos hc]
    exact exec_transform_of_no_cipher rfl hc
  rw [if_neg hc]
  have hloads := s.rtcp.loads_eq wire
  by_cases hmax : 1500 < wire.length
  · rw [if_pos hmax] at hloads ⊢
    exact exec_sesDecRtcp_of_loads_error hc hloads
  rw [if_neg hmax] at hloads ⊢
  by_cases hmin : wire.length < 12
  · rw [if_pos hmin] at hloads
    rw [if_pos (.inl hmin)]
    exact exec_sesDecRtcp_of_loads_error hc hloads
  obtain ⟨-, -, -, hses⟩ := hs
  have hkeys : badKeySalt e.liveRtcpKey e.rtcpSalt = false := (hses.keys_fit hc).2
  have hexec := exec_sesDecRtcp_of_loads hc (s.rtcp.loads_of_size hmax hmin)
  set copy := s.rtcp.loadCopy wire with hcopy
  have hdec : copy.decGcm e.liveRtcpKey e.rtcpSalt =
      if esw &&& 0x80000000#32 = 0#32 then _ else if n < 8 + 16 then _ else _ :=
    s.rtcp.decGcm_loadCopy hkeys
  by_cases he : esw &&& 0x80000000#32 = 0#32
  · rw [if_pos he] at hdec
    rw [if_pos (.inr he)]
    exact hexec.trans (perform_map_error hdec)
  rw [if_neg he] at hdec
  rw [if_neg (not_or.mpr ⟨hmin, he⟩)]
  by_cases hroom : n < 8 + 16
  · rw [if_pos hroom] at hdec ⊢
    exact hexec.trans (perform_map_error hdec)
  rw [if_neg hroom] at hdec ⊢
  have hopened := s.rtcp.openedBody_loadCopy e.liveRtcpKey e.rtcpSalt (not_lt.mp hroom) he
  rw [← hcopy] at hopened
  split
  · next hopen =>
    rw [hopened.trans hopen] at hdec
    exact hexec.trans (perform_map_error hdec)
  · next plain hopen =>
    have hend := copy.end_of_openedBody e.liveRtcpKey e.rtcpSalt (not_lt.mp hroom)
      (hopened.trans hopen)
    rw [hopened.trans hopen] at hdec
    have hlen : copy.len = n := rfl
    refine ⟨_, hexec.trans (perform_map_ok hdec), ?_, fun a ha => ?_⟩
    · show Memory.slice (Memory.write copy.buf 8 plain) 0 (n - 16) = _
      have hhead : copy.slice 0 8 = wire.take 8 := s.rtcp.slice_loadCopy (by omega)
      rw [show n - 16 = 8 + plain.length by omega, Memory.slice_append,
        Memory.slice_write_disjoint _ _ _ _ _ (.inl (by omega)), Nat.zero_add,
        Memory.slice_write_same _ _ _ _ rfl]
      exact congrArg (· ++ plain) hhead
    · exact (Memory.read_write_of_not_mem (.inr (by omega))).trans
        (Memory.read_write_of_not_mem (.inr (by rw [List.length_take]; omega)))

end Sys2Proof.Machine
end

section
/-! SUPPORT. The EKT tail (R100, R289): what is split from the end of a wire buffer, and that a tail
that was appended is split off again. -/

namespace Sys2Proof.Machine

/-- Two bytes of a string, read as a number. -/
theorem beNat_take_two {bs : Bytes} {k : Nat} (h : k + 2 ≤ bs.length) :
    beNat ((bs.drop k).take 2) =
      (bs.getD k 0x00#8).toNat * 256 + (bs.getD (k + 1) 0x00#8).toNat := by
  rw [List.drop_eq_getElem_cons (by omega), List.drop_eq_getElem_cons (by omega),
    List.getD_eq_getElem _ _ (by omega), List.getD_eq_getElem _ _ (by omega)]
  simp only [List.take_succ_cons, List.take_zero, beNat_cons, beNat_nil, List.length_cons,
    List.length_nil, Nat.zero_add, Nat.pow_one, Nat.pow_zero, Nat.mul_one, Nat.add_zero]

/-- R100, R289: how long a tail is by its last three bytes. -/
def ektTotal (wire : Bytes) : Nat :=
  if wire.getD (wire.length - 1) 0x00#8 = 0x00#8 then 1
  else (wire.getD (wire.length - 3) 0x00#8).toNat * 256 +
    (wire.getD (wire.length - 2) 0x00#8).toNat + 5

theorem ektTotal_short {wire : Bytes} (h : wire.getD (wire.length - 1) 0x00#8 = 0x00#8) :
    ektTotal wire = 1 :=
  if_pos h

theorem ektTotal_long {wire : Bytes} (h : wire.getD (wire.length - 1) 0x00#8 = 0x02#8)
    (h3 : 3 ≤ wire.length) :
    ektTotal wire = beNat ((wire.drop (wire.length - 3)).take 2) + 2 + 2 + 1 := by
  have hne : ¬ wire.getD (wire.length - 1) 0x00#8 = 0x00#8 := by rw [h]; decide
  rw [ektTotal, if_neg hne, beNat_take_two (by omega),
    show wire.length - 3 + 1 = wire.length - 2 by omega]

/-- R289: the four ways to be malformed, in one condition. -/
theorem ektSplit_eq (wire : Bytes) :
    ektSplit wire =
      if wire.length < 1 ∨ (wire.getD (wire.length - 1) 0x00#8 ≠ 0x00#8 ∧
            wire.getD (wire.length - 1) 0x00#8 ≠ 0x02#8) ∨
          (wire.getD (wire.length - 1) 0x00#8 = 0x02#8 ∧ wire.length < 3) ∨
          wire.length ≤ ektTotal wire then .error .malformedEkt
      else .ok (ektTotal wire) := by
  unfold ektSplit
  dsimp only
  by_cases hempty : wire.length < 1
  · rw [if_pos hempty, if_pos (.inl hempty)]
  rw [if_neg hempty]
  by_cases hshort : wire.getD (wire.length - 1) 0x00#8 = 0x00#8
  · rw [if_pos hshort, ektTotal_short hshort]
    refine if_congr ?_ rfl rfl
    rw [hshort]
    simp [hempty]
  rw [if_neg hshort]
  by_cases hlong : wire.getD (wire.length - 1) 0x00#8 = 0x02#8
  · rw [if_pos hlong]
    by_cases h3 : wire.length < 3
    · rw [if_pos h3, if_pos (.inr (.inr (.inl ⟨hlong, h3⟩)))]
    · rw [if_neg h3, ← ektTotal_long hlong (by omega)]
      refine if_congr ?_ rfl rfl
      rw [hlong]
      simp [hempty, h3]
  · rw [if_neg hlong, if_pos (.inr (.inl ⟨hshort, hlong⟩))]

/-- A tail that ends with a known command byte and leaves at least one byte is split off. -/
theorem ektSplit_of_total_lt {wire : Bytes}
    (hcmd : wire.getD (wire.length - 1) 0x00#8 = 0x00#8 ∨
      wire.getD (wire.length - 1) 0x00#8 = 0x02#8 ∧ 3 ≤ wire.length)
    (hlt : ektTotal wire < wire.length) : ektSplit wire = .ok (ektTotal wire) := by
  rw [ektSplit_eq, if_neg]
  rintro (hempty | ⟨hne0, hne2⟩ | ⟨h2, hshort⟩ | hle)
  · omega
  · exact hcmd.elim hne0 fun h => hne2 h.1
  · rcases hcmd with h0 | ⟨-, h3⟩
    · rw [h0] at h2
      cases h2
    · omega
  · omega

/-- The pending tail of a legal slot is a tail of R100. -/
theorem Pkt.Inv.isEktTail {p : Pkt} (h : p.Inv) : IsEktTail p.ektTag := by
  obtain ⟨-, -, -, -, -, hshape⟩ := h
  have hlen : p.ektTag.length = p.ektLen := Memory.length_slice _ _ _
  rcases hshape with ⟨hone, hzero⟩ | ⟨hfive, hcmd, hfield⟩
  · refine .inl ?_
    rw [Pkt.ektTag, hone]
    exact congrArg (· :: []) hzero
  · refine .inr ⟨by omega, ?_, ?_⟩
    · have hlast := Memory.slice_eq_drop_take p.ekt (a := p.ektLen - 1) (n := 1)
        (len := p.ektLen) (by omega)
      rw [List.take_of_length_le (by simp; omega)] at hlast
      rw [hlen]
      exact hlast.symm.trans (congrArg (· :: []) hcmd)
    · rw [hlen, Pkt.ektTag, ← Memory.slice_eq_drop_take p.ekt (by omega)]
      exact hfield

/-- R289: a tail with at least one byte before it is split off again. -/
theorem ektSplit_append {packet tail : Bytes} (htail : IsEktTail tail) (h : 1 ≤ packet.length) :
    ektSplit (packet ++ tail) = .ok tail.length := by
  have hlen : (packet ++ tail).length = packet.length + tail.length := List.length_append
  rcases htail with rfl | ⟨hfive, hcmd, hfield⟩
  · have hlast : (packet ++ [0x00#8]).getD ((packet ++ [0x00#8]).length - 1) 0x00#8 = 0x00#8 := by
      simp
    have htotal := ektTotal_short hlast
    rw [ektSplit_of_total_lt (.inl hlast) (by rw [htotal, hlen, List.length_singleton]; omega), htotal]
    rfl
  · have behind (k : Nat) (hk : k ≤ tail.length) : (packet ++ tail).drop (packet.length +
        tail.length - k) = tail.drop (tail.length - k) := by
      rw [Nat.add_sub_assoc hk, List.drop_append, List.drop_eq_nil_of_le (by omega),
        Nat.add_sub_cancel_left, List.nil_append]
    have hlast : (packet ++ tail).getD ((packet ++ tail).length - 1) 0x00#8 = 0x02#8 := by
      have hone := drop_length_sub_one (bs := packet ++ tail) (by omega)
      rw [hlen, behind 1 (by omega), hcmd, ← hlen] at hone
      exact (List.head_eq_of_cons_eq hone).symm
    have htotal : ektTotal (packet ++ tail) = tail.length := by
      rw [ektTotal_long hlast (by omega), hlen, behind 3 (by omega)]
      omega
    rw [ektSplit_of_total_lt (.inr ⟨hlast, by omega⟩) (by omega), htotal]

end Sys2Proof.Machine
end

section
/-! SUPPORT. `SES.ENCODE`: the packet that is rewritten, sealed and sent (R287), as bytes. -/

namespace Sys2Proof.Machine

/-! ## Rewriting and the OHB (R287 steps 3 and 4) -/

section
variable (e : Ses) (p : Pkt)

/-- R287 step 4: the OHB that records the SEQ of the packet, one byte without rewriting. -/
def Ses.ohb : Bytes := (p.setSeq (e.wireSeq p)).ohbBlock p.pt p.seq p.m

/-- The packet with the SEQ of the wire and the OHB behind it. -/
def Ses.rewritten : Pkt := (p.setSeq (e.wireSeq p)).append (e.ohb p)

/-- R287 step 7: the tail that is sent. -/
def Ses.sentTail : Bytes := if e.useEkt then p.ektTag else []

theorem Ses.length_ohb : (e.ohb p).length = if e.wireSeq p != p.seq then 3 else 1 :=
  p.length_ohbBlock_setSeq _

theorem Ses.length_sentTail : (e.sentTail p).length = if e.useEkt then p.ektLen else 0 := by
  unfold Ses.sentTail
  split
  · exact Memory.length_slice _ _ _
  · rfl

/-- R287: the size that is checked first is that of OHB, tag and tail behind the packet. -/
theorem Ses.encodedLength_eq :
    e.encodedLength p = p.len + (e.ohb p).length + 16 + (e.sentTail p).length := by
  rw [Ses.encodedLength, Ses.length_ohb, Ses.length_sentTail, tagLen_eq]

theorem Pkt.setSeq_m (v : BitVec 16) : (p.setSeq v).m = p.m :=
  Operand.bool.inj (HdrField.value_write_of_disjoint (f := .m) p (.inl (by decide)))

/-- R92, R93: without a new SEQ the block is one byte 00; with one it is the old SEQ and 01. -/
theorem Ses.ohb_eq :
    e.ohb p = if e.wireSeq p ≠ p.seq then
        [Memory.read p.buf 2, Memory.read p.buf 3, 0x01#8] else [0x00#8] := by
  have hold : beBytes 2 p.seq.toNat = [Memory.read p.buf 2, Memory.read p.buf 3] :=
    encodeOperand_readBE_two p.buf 2
  rw [Ses.ohb, Pkt.ohbBlock_eq, ← beBytes_two, hold, Pkt.ohbConfig_eq, Pkt.setSeq_pt,
    Pkt.setSeq_seq, Pkt.setSeq_m]
  by_cases hseq : e.wireSeq p = p.seq
  · simp [hseq]
  · simp [hseq, Ne.symm hseq]

theorem Pkt.pt_toNat_le : p.pt.toNat ≤ 127 := by
  rw [Pkt.pt, BitVec.toNat_and]
  exact Nat.and_le_right

theorem Ses.setOhb_eq_rewritten (hfits : e.encodedLength p ≤ 1500) :
    (p.setSeq (e.wireSeq p)).setOhb p.pt p.seq p.m = .ok (e.rewritten p) := by
  have hpt := p.pt_toNat_le
  have hlen : (p.setSeq (e.wireSeq p)).len = p.len := rfl
  rw [Ses.encodedLength_eq, Ses.ohb] at hfits
  rw [Pkt.setOhb_eq, if_neg (by omega), if_neg (by omega)]
  rfl

@[simp] theorem Ses.rewritten_len : (e.rewritten p).len = p.len + (e.ohb p).length := rfl

theorem Ses.setSeq_layout :
    (p.setSeq (e.wireSeq p)).badPay = p.badPay ∧ (p.setSeq (e.wireSeq p)).payOff = p.payOff :=
  p.write_layout (by decide) (by simp)

theorem Ses.rewritten_layout (hgood : p.badPay = false) :
    (e.rewritten p).badPay = false ∧ (e.rewritten p).payOff = p.payOff := by
  obtain ⟨hbad, hpay⟩ := e.setSeq_layout p
  obtain ⟨hbad', hpay'⟩ := Pkt.append_layout (e.ohb p) (hbad.trans hgood)
  exact ⟨hbad', hpay'.trans hpay⟩

/-- A part of the rewritten packet in front of the OHB. -/
theorem Ses.slice_rewritten {a n : Nat} (h : a + n ≤ p.len) :
    (e.rewritten p).slice a n = (p.setSeq (e.wireSeq p)).slice a n :=
  Memory.slice_write_disjoint _ _ _ _ _ (.inl h)

/-- A part that is not SEQ stands as it was. -/
theorem Ses.slice_rewritten_kept {a n : Nat} (h : a + n ≤ p.len) (hseq : a + n ≤ 2 ∨ 4 ≤ a) :
    (e.rewritten p).slice a n = p.slice a n := by
  rw [Ses.slice_rewritten e p h]
  exact p.slice_write_of_disjoint (hseq.imp id fun ha => by simpa using ha)

theorem Ses.slice_rewritten_seq (h : 4 ≤ p.len) :
    (e.rewritten p).slice 2 2 = beBytes 2 (e.wireSeq p).toNat := by
  rw [Ses.slice_rewritten e p h]
  exact Memory.slice_write_same _ _ _ _ (length_beBytes 2 _).symm

/-- What is sealed: the bytes from `pay_off` on and the OHB. -/
theorem Ses.slice_rewritten_payload (hpay : p.payOff ≤ p.len) :
    (e.rewritten p).slice p.payOff (p.len + (e.ohb p).length - p.payOff) =
      p.slice p.payOff (p.len - p.payOff) ++ e.ohb p := by
  have h12 := p.le_extOff.trans p.extOff_le_payOff
  have hohb : (e.rewritten p).slice p.len (e.ohb p).length = e.ohb p :=
    Memory.slice_write_same _ _ _ _ rfl
  rw [show p.len + (e.ohb p).length - p.payOff = p.len - p.payOff + (e.ohb p).length by omega,
    Pkt.slice_add, Ses.slice_rewritten_kept e p (by omega) (.inr (by omega)),
    show p.payOff + (p.len - p.payOff) = p.len by omega, hohb]

/-! ## Sealing and the tail (R287 steps 5 and 7) -/

/-- The rewritten packet, sealed with the session's key under its ROC. -/
def Ses.sealedPkt : Pkt :=
  (e.rewritten p).replacePayload ((e.rewritten p).sealedPayload e.roc e.liveRtpKey e.rtpSalt)

/-- The packet as it is sent. -/
def Ses.wirePkt : Pkt := if e.useEkt then (e.sealedPkt p).appendEkt else e.sealedPkt p

theorem Ses.sealedPkt_len (hpay : p.badPay = false) :
    (e.sealedPkt p).len = p.len + (e.ohb p).length + 16 := by
  obtain ⟨hgood, -⟩ := e.rewritten_layout p hpay
  exact Pkt.end_of_sealedPayload (p := e.rewritten p) _ _ _
    ((Pkt.badPay_eq_false_iff _).mp hgood).2

/-- R287: past the size check, for a session's keys, every step succeeds. -/
theorem Ses.encodePkt_eq (hpay : p.badPay = false) (hkeys : badKeySalt e.liveRtpKey e.rtpSalt = false)
    (hfits : e.encodedLength p ≤ 1500) : e.encodePkt p = .ok (e.wirePkt p) := by
  obtain ⟨hgood, -⟩ := e.rewritten_layout p hpay
  have hchecks := (badKeySalt_or_badPay_iff (e.rewritten p) e.liveRtpKey e.rtpSalt).not.mp
    (by simp [hkeys, hgood])
  have hsize := e.encodedLength_eq p
  have hseal : (e.rewritten p).encGcm e.roc e.liveRtpKey e.rtpSalt = .ok (e.sealedPkt p) := by
    rw [Pkt.encGcm_eq, if_neg hchecks, if_neg (by rw [Ses.rewritten_len]; omega)]
    rfl
  simp only [Ses.encodePkt, e.setOhb_eq_rewritten p hfits, hseal]
  rfl

/-- The tail goes behind the sealed packet. -/
theorem Ses.wirePkt_bytes : (e.wirePkt p).bytes = (e.sealedPkt p).bytes ++ e.sentTail p := by
  cases hekt : e.useEkt with
  | false => simp [Ses.wirePkt, Ses.sentTail, hekt]
  | true =>
    have hlen : (e.sealedPkt p).ektLen = (e.sealedPkt p).ektTag.length :=
      (Memory.length_slice _ _ _).symm
    simp only [Ses.wirePkt, Ses.sentTail, hekt, if_true]
    rw [Pkt.appendEkt, hlen]
    exact (e.sealedPkt p).bytes_append _

/-- R89: the sealed packet is the rewritten header, then ciphertext and tag. -/
theorem Ses.sealedPkt_bytes : (e.sealedPkt p).bytes =
    (e.rewritten p).slice 0 (e.rewritten p).payOff ++
      (e.rewritten p).sealedPayload e.roc e.liveRtpKey e.rtpSalt :=
  (e.rewritten p).bytes_replacePayload _

/-- R287: nothing behind the wire packet is written. -/
theorem Ses.wirePkt_octet_behind (hpay : p.badPay = false) {i : Nat} (hi : (e.wirePkt p).len ≤ i) :
    (e.wirePkt p).octet i = p.octet i := by
  have hend := e.sealedPkt_len p hpay
  obtain ⟨hgood, hoff⟩ := e.rewritten_layout p hpay
  have h12 := (p.le_extOff.trans p.extOff_le_payOff).trans ((p.badPay_eq_false_iff).mp hpay).2
  have hsealed (h : (e.sealedPkt p).len ≤ i) : (e.sealedPkt p).octet i = p.octet i := by
    calc (e.sealedPkt p).octet i = (e.rewritten p).octet i :=
          Pkt.write_octet_of_not_mem (p := (e.rewritten p).setLen _) (.inr h)
      _ = (p.setSeq (e.wireSeq p)).octet i :=
          Pkt.write_octet_of_not_mem (.inr (by
            show p.len + (e.ohb p).length ≤ i
            omega))
      _ = p.octet i := Pkt.write_octet_of_not_mem (.inr (by rw [length_beBytes]; omega))
  unfold Ses.wirePkt at hi ⊢
  split at hi
  · next hekt =>
    rw [if_pos hekt]
    have hlen : (e.sealedPkt p).len + (e.sealedPkt p).ektTag.length ≤ i := by
      rw [Pkt.ektTag, Memory.length_slice]
      exact hi
    exact (Pkt.write_octet_of_not_mem (.inr hlen)).trans (hsealed (by omega))
  · next hekt =>
    rw [if_neg hekt]
    exact hsealed hi

end

end Sys2Proof.Machine
end

section
/-! SUPPORT. The bytes on the wire after `SES.ENCODE` (R89), and `SES.DECODE` step by step (R290). -/

namespace Sys2Proof.Machine

/-! ## The wire packet and the counters (R89, R12) -/

section
variable (e : Ses) (p : Pkt)

/-- R287 step 3: the header as it is sent, also the AAD. -/
def Ses.wireHead : Bytes :=
  p.slice 0 2 ++ beBytes 2 (e.wireSeq p).toNat ++ p.slice 4 (p.payOff - 4)

/-- R287 step 5: ciphertext and tag of payload and OHB, under the SEQ of the wire. -/
def Ses.wireSeal : Bytes × Bytes :=
  gcmSeal e.liveRtpKey
    (xorBytes ([0x00#8, 0x00#8] ++ p.slice 8 4 ++ beBytes 4 e.roc.toNat ++
      beBytes 2 (e.wireSeq p).toNat) e.rtpSalt)
    (e.wireHead p) (p.slice p.payOff (p.len - p.payOff) ++ e.ohb p)

variable {p}

/-- R89: header, ciphertext, tag, tail. -/
theorem Ses.wirePkt_bytes_eq (hpay : p.badPay = false) :
    (e.wirePkt p).bytes =
      e.wireHead p ++ (e.wireSeal p).1 ++ (e.wireSeal p).2 ++ e.sentTail p := by
  have hend := ((p.badPay_eq_false_iff).mp hpay).2
  have h12 := p.le_extOff.trans p.extOff_le_payOff
  have hhead : (e.rewritten p).slice 0 p.payOff = e.wireHead p := by
    rw [Ses.slice_rewritten e p (by omega), Pkt.slice_setSeq _ _ (by omega), Ses.wireHead]
  have hseal : (e.rewritten p).sealedPayload e.roc e.liveRtpKey e.rtpSalt =
      (e.wireSeal p).1 ++ (e.wireSeal p).2 := by
    rw [Pkt.sealedPayload, (e.rewritten_layout p hpay).2, hhead, Ses.rewritten_len,
      Ses.slice_rewritten_payload e p hend, Pkt.gcmIv,
      Ses.slice_rewritten_kept e p (by omega) (.inr (by omega)),
      Ses.slice_rewritten_seq e p (by omega)]
    rfl
  rw [Ses.wirePkt_bytes, Ses.sealedPkt_bytes, (e.rewritten_layout p hpay).2, hhead, hseal]
  simp only [List.append_assoc]

theorem Ses.wirePkt_len (hpay : p.badPay = false) : (e.wirePkt p).len = e.encodedLength p := by
  have hsealed := e.sealedPkt_len p hpay
  have hbytes := congrArg List.length (e.wirePkt_bytes p)
  rw [List.length_append, Pkt.length_bytes, Pkt.length_bytes] at hbytes
  rw [hbytes, hsealed, Ses.encodedLength_eq]

/-- R12: the pair of ROC and SEQ counts as one number of 48 bits. -/
theorem Ses.advance_counter :
    e.advance.roc.toNat * 2 ^ 16 + e.advance.seq.toNat =
      (e.roc.toNat * 2 ^ 16 + e.seq.toNat + 1) % 2 ^ 48 := by
  have hseq := e.seq.isLt
  have hroc := e.roc.isLt
  rw [Ses.advance_roc, Ses.advance_seq]
  by_cases hwrap : e.seq + 1#16 = 0#16
  · have hmax : e.seq.toNat = 0xFFFF := by bv_omega
    rw [if_pos hwrap, hwrap, BitVec.toNat_add, hmax]
    simp only [BitVec.toNat_ofNat]
    omega
  · have hnext : (e.seq + 1#16).toNat = e.seq.toNat + 1 := by bv_omega
    rw [if_neg hwrap, hnext]
    omega

end

theorem exec_sesEncode_loaded {s : State} (hc : s.ses.cipher ≠ 0x0000#16)
    (hv : s.pkt.valid = true) :
    exec .sesEncode s = perform s
      (if s.pkt.badPay then .error .invalidField
      else if 1500 < s.ses.encodedLength s.pkt then .error .sizeOverflow
      else (s.ses.encodePkt s.pkt).map fun w =>
        ((s.withPkt w).withSes (if s.ses.rewrite then s.ses.advance else s.ses),
          [.bytes w.bytes])) := by
  show perform s s.encode = _
  rw [State.encode, if_neg hc, if_neg (by simp [hv]), mtu_eq]
  cases s.ses.encodePkt s.pkt <;> rfl

/-! ## `SES.DECODE` (R290) -/

section
variable {s : State} {wire : Bytes}

theorem exec_sesDecode_too_long (hc : s.ses.cipher ≠ 0x0000#16) (hmax : 1500 < wire.length) :
    exec (.sesDecode wire) s = .next (s.respond [0x01#8]) := by
  show perform s (s.decode wire) = _
  rw [State.decode, if_neg hc, mtu_eq, if_pos hmax]
  rfl

theorem exec_sesDecode_of_split_error {k : Status} (hc : s.ses.cipher ≠ 0x0000#16)
    (hmax : ¬ 1500 < wire.length)
    (hsplit : (if s.ses.useEkt then ektSplit wire else .ok 0) = .error k) :
    exec (.sesDecode wire) s = .next (s.respond [k.code]) := by
  show perform s (s.decode wire) = _
  rw [State.decode, if_neg hc, mtu_eq, if_neg hmax, hsplit]
  rfl

theorem exec_sesDecode_of_split {total : Nat} (hc : s.ses.cipher ≠ 0x0000#16)
    (hmax : ¬ 1500 < wire.length)
    (hsplit : (if s.ses.useEkt then ektSplit wire else .ok 0) = .ok total) :
    exec (.sesDecode wire) s = perform s
      (if wire.length - total < 12 then .error .invalidField
      else (s.ses.decodePkt s.pkt (wire.take (wire.length - total))).map fun q =>
        (s.withPkt (q.setEkt
          (if s.ses.useEkt then wire.drop (wire.length - total) else [0x00#8])), [])) := by
  show perform s (s.decode wire) = _
  rw [State.decode, if_neg hc, mtu_eq, if_neg hmax, hsplit]
  dsimp only
  cases s.ses.decodePkt s.pkt (wire.take (wire.length - total)) <;> rfl

end

/-- R263 on a loaded copy, for a session's keys. -/
theorem Pkt.decGcm_of_keys {p : Pkt} {roc : BitVec 32} {key salt : Bytes}
    (hkeys : badKeySalt key salt = false) :
    p.decGcm roc key salt =
      if p.badPay = true then .error .invalidField
      else if p.len < p.payOff + 16 then .error .authFailure
      else (p.openedPayload roc key salt).elim (.error .authFailure)
        fun plain => .ok (p.replacePayload plain) := by
  rw [Pkt.decGcm_eq]
  refine if_congr ?_ rfl rfl
  rw [← badKeySalt_or_badPay_iff, hkeys]
  simp

/-- R290 steps 3 and 4 once the copy has been opened. -/
theorem Ses.decodePkt_of_opened {e : Ses} {p q : Pkt} {packet : Bytes}
    (hq : (p.load packet).decGcm e.roc e.liveRtpKey e.rtpSalt = .ok q) :
    e.decodePkt p packet = q.getOhb.map fun r => q.restore r.1 r.2.1 r.2.2 := by
  simp only [Ses.decodePkt, hq]
  cases q.getOhb <;> rfl

theorem Ses.decodePkt_of_not_opened {e : Ses} {p : Pkt} {packet : Bytes} {k : Status}
    (hq : (p.load packet).decGcm e.roc e.liveRtpKey e.rtpSalt = .error k) :
    e.decodePkt p packet = .error k := by
  simp only [Ses.decodePkt, hq]

/-- R261, R263: IV, AAD, ciphertext and tag, read off the bytes of the packet. -/
theorem Pkt.openedPayload_load (p : Pkt) {packet : Bytes} (roc : BitVec 32) (key salt : Bytes)
    (hroom : (p.load packet).payOff + 16 ≤ packet.length) :
    (p.load packet).openedPayload roc key salt =
      gcmOpen key (xorBytes ([0x00#8, 0x00#8] ++ (packet.drop 8).take 4 ++ beBytes 4 roc.toNat ++
          (packet.drop 2).take 2) salt)
        (packet.take (p.load packet).payOff)
        ((packet.drop (p.load packet).payOff).take
          (packet.length - 16 - (p.load packet).payOff))
        (packet.drop (packet.length - 16)) := by
  have h12 := (p.load packet).le_extOff.trans (p.load packet).extOff_le_payOff
  have hlen := p.load_len packet
  have part (a n : Nat) (h : a + n ≤ packet.length) :
      (p.load packet).slice a n = (packet.drop a).take n := by
    rw [Pkt.slice_eq_bytes _ h, Pkt.bytes_load]
  rw [Pkt.openedPayload, Pkt.gcmIv, hlen, part 8 4 (by omega), part 2 2 (by omega),
    part 0 _ (by omega), part (p.load packet).payOff _ (by omega),
    part (packet.length - 16) 16 (by omega), List.drop_zero,
    List.take_of_length_le (i := 16) (by rw [List.length_drop]; omega)]
  rfl

/-! ## `SES.DECODE` after `SES.ENCODE` (R295) -/

/-- A copy that holds the bytes of a sealed packet opens to the bytes of the packet. -/
theorem Pkt.decGcm_of_sealed_bytes {c q : Pkt} {roc : BitVec 32} {key salt : Bytes}
    (hkeys : badKeySalt key salt = false) (hgood : q.badPay = false)
    (hc : c.bytes = (q.replacePayload (q.sealedPayload roc key salt)).bytes) :
    ∃ r, c.decGcm roc key salt = .ok r ∧ r.bytes = q.bytes := by
  have hpay := (q.badPay_eq_false_iff.mp hgood).2
  have h12 := q.le_extOff.trans q.extOff_le_payOff
  obtain ⟨hgood', hoff'⟩ := q.replacePayload_layout (q.sealedPayload roc key salt)
  have hend := Pkt.end_of_sealedPayload roc key salt hpay
  have hlen := Pkt.len_eq_of_bytes hc
  rw [Pkt.replacePayload_len, hend] at hlen
  obtain ⟨hbad, hoff⟩ := Pkt.layout_eq_of_bytes hc (by omega)
  rw [hgood'] at hbad
  have hoff : c.payOff = q.payOff := (hoff hbad).trans hoff'
  have hopen := Pkt.openedPayload_eq_of_bytes hc hbad (by omega) roc key salt (by omega)
  rw [Pkt.openedPayload_sealed roc key salt hpay] at hopen
  refine ⟨c.replacePayload (q.slice q.payOff (q.len - q.payOff)), ?_, ?_⟩
  · rw [Pkt.decGcm_of_keys hkeys, if_neg (by simp [hbad]), if_neg (by omega), hopen]
    rfl
  · have hhead : c.slice 0 q.payOff = q.slice 0 q.payOff := by
      rw [Pkt.slice_eq_of_bytes hc (by omega), q.slice_replacePayload_before _ (by omega)]
    have hsplit := q.slice_add 0 q.payOff (q.len - q.payOff)
    rw [Nat.zero_add, Nat.add_sub_cancel' hpay] at hsplit
    rw [Pkt.bytes_replacePayload, hoff, hhead, Pkt.bytes, hsplit]

/-- The octet of M and PT, put together again. -/
theorem Pkt.octet_one_eq (p : Pkt) : bitAt p.m 7 ||| p.pt = p.octet 1 := by
  have hm : bitAt p.m 7 = p.octet 1 &&& 0x80#8 := (and_bitAt (p.octet 1) (k := 7) (by decide)).symm
  rw [hm, Pkt.pt, ← BitVec.and_or_distrib_left]
  exact BitVec.and_allOnes

/-- The first four octets of a packet and the rest. -/
theorem Pkt.bytes_eq_parts (p : Pkt) (h : 4 ≤ p.len) :
    p.bytes = p.slice 0 1 ++ [p.octet 1] ++ p.slice 2 2 ++ p.slice 4 (p.len - 4) := by
  have hlen : p.len = 1 + 1 + 2 + (p.len - 4) := by omega
  conv_lhs => rw [Pkt.bytes, hlen, Pkt.slice_add, Pkt.slice_add, Pkt.slice_add]
  rfl

/-- R290 step 4 undoes R287 steps 3 and 4. -/
theorem Ses.restore_rewritten {e : Ses} {p r : Pkt} (hr : r.bytes = (e.rewritten p).bytes)
    (h12 : 12 ≤ p.len) :
    (r.restore p.pt p.seq p.m).len = p.len ∧ (r.restore p.pt p.seq p.m).bytes = p.bytes := by
  have hlen := Pkt.len_eq_of_bytes hr
  rw [Ses.rewritten_len] at hlen
  have hlast : r.ohbLast = (e.rewritten p).ohbLast := by
    rw [Pkt.ohbLast, Pkt.octet_eq_of_bytes hr (by omega), Pkt.len_eq_of_bytes hr, Pkt.ohbLast]
  have hohb : ohbLength r.ohbLast = (e.ohb p).length := by
    have hconfig := Pkt.ohbLast_of_append (p := p.setSeq (e.wireSeq p)) (q := e.rewritten p)
      (pt := p.pt) (seq := p.seq) (m := p.m) rfl
    rw [hlast, hconfig, Pkt.ohbLength_ohbConfig]
    rfl
  have hend : r.len - ohbLength r.ohbLast = p.len := by omega
  have part {a n : Nat} (h : a + n ≤ p.len) (hseq : a + n ≤ 2 ∨ 4 ≤ a) :
      r.slice a n = p.slice a n := by
    rw [Pkt.slice_eq_of_bytes hr (by omega), e.slice_rewritten_kept p h hseq]
  have hold : beBytes 2 p.seq.toNat = p.slice 2 2 := encodeOperand_readBE_two p.buf 2
  refine ⟨hend, ?_⟩
  rw [Pkt.bytes_restore _ _ _ _ (by omega), hend, part (by omega) (.inl (by omega)),
    part (by omega) (.inr le_rfl), Pkt.octet_one_eq, hold, ← p.bytes_eq_parts (by omega)]

/-- R295: a copy that holds the bytes of the sealed packet decodes to the packet. -/
theorem Ses.decodePkt_sealed {e f : Ses} {p u : Pkt} (hgood : p.badPay = false)
    (hkeys : badKeySalt e.liveRtpKey e.rtpSalt = false) (hfits : e.encodedLength p ≤ 1500)
    (hroc : f.roc = e.roc) (hkey : f.liveRtpKey = e.liveRtpKey) (hsalt : f.rtpSalt = e.rtpSalt) :
    ∃ q, f.decodePkt u (e.sealedPkt p).bytes = .ok q ∧ q.len = p.len ∧ q.bytes = p.bytes := by
  have h12 := (p.le_extOff.trans p.extOff_le_payOff).trans (p.badPay_eq_false_iff.mp hgood).2
  obtain ⟨hgood', -⟩ := e.rewritten_layout p hgood
  obtain ⟨r, hdec, hr⟩ := Pkt.decGcm_of_sealed_bytes (c := u.load (e.sealedPkt p).bytes) hkeys
    hgood' (u.bytes_load _)
  rw [← hroc, ← hkey, ← hsalt] at hdec
  have hohb : (e.rewritten p).getOhb = .ok (p.pt, p.seq, p.m) :=
    Pkt.getOhb_setOhb (e.setOhb_eq_rewritten p hfits) ((e.setSeq_layout p).1.trans hgood)
  have hlen := Pkt.len_eq_of_bytes hr
  rw [Ses.rewritten_len] at hlen
  rw [← Pkt.getOhb_eq_of_bytes hr (by omega)] at hohb
  refine ⟨r.restore p.pt p.seq p.m, ?_, Ses.restore_rewritten hr h12⟩
  rw [Ses.decodePkt_of_opened hdec, hohb]
  rfl

end Sys2Proof.Machine
end

section
/-! SUPPORT. The statements of spec/48_session.md on `SES.ENCODE`, the EKT tail and `SES.DECODE`
(R287, R289, R290, R295). -/

namespace Sys2Proof.Machine

/-! ## What `SES.DECODE` leaves in the slot (R290 step 4) -/

section
variable {q : Pkt} {d : Bytes} {pt : BitVec 8} {seq : BitVec 16} {m : Bool}

/-- R203, R290: the restored packet, read off the bytes that were opened. -/
theorem Pkt.bytes_restore_of_bytes (hq : q.bytes = d) (hohb : q.getOhb = .ok (pt, seq, m)) :
    (q.restore pt seq m).bytes = d.take 1 ++ [(if m = true then 0x80#8 else 0x00#8) ||| pt] ++
      beBytes 2 seq.toNat ++ (d.take (q.restore pt seq m).len).drop 4 := by
  have hfits := Pkt.getOhb_ok hohb
  have h12 := q.le_extOff.trans q.extOff_le_payOff
  have hm : bitAt m 7 = if m = true then 0x80#8 else 0x00#8 := by cases m <;> rfl
  show _ = _ ++ (d.take (q.len - ohbLength q.ohbLast)).drop 4
  rw [Pkt.bytes_restore _ _ _ _ (by omega), hm, q.slice_eq_bytes (a := 0) (by omega),
    q.slice_eq_bytes (a := 4) (by omega), hq, List.drop_zero, List.drop_take]

/-- The length that remains, read off the bytes that were opened. -/
theorem Pkt.len_restore_of_bytes (hq : q.bytes = d) (hlen : 1 ≤ q.len) :
    (q.restore pt seq m).len = d.length - ohbLength (d.getD (d.length - 1) 0x00#8) := by
  show q.len - ohbLength q.ohbLast = _
  rw [Pkt.ohbLast_eq_getD hlen, hq, ← hq, Pkt.length_bytes]

/-- Nothing behind the header is written. -/
theorem Pkt.restore_octet_behind {i : Nat} (hi : 4 ≤ i) :
    (q.restore pt seq m).octet i = q.octet i :=
  (Pkt.write_octet_of_not_mem (p := q.write 1 _) (.inr (by simpa using hi))).trans
    (Pkt.write_octet_of_not_mem (.inr (by simp; omega)))

end

/-- The bytes of a copy whose payload was opened in place. -/
theorem Pkt.bytes_replacePayload_load (p : Pkt) {packet : Bytes} (plain : Bytes)
    (h : (p.load packet).payOff ≤ packet.length) :
    ((p.load packet).replacePayload plain).bytes =
      packet.take (p.load packet).payOff ++ plain := by
  rw [Pkt.bytes_replacePayload, Pkt.slice_eq_bytes _ (by simpa using h), Pkt.bytes_load,
    List.drop_zero]

/-- What is opened in place stays inside the received packet. -/
theorem Pkt.replacePayload_load_octet_behind (p : Pkt) {packet plain : Bytes} {i : Nat}
    (hend : (p.load packet).payOff + plain.length ≤ packet.length) (hi : packet.length ≤ i) :
    ((p.load packet).replacePayload plain).octet i = p.octet i :=
  (Pkt.write_octet_of_not_mem (p := (p.load packet).setLen _) (.inr (by
      show (p.load packet).payOff + plain.length ≤ i
      omega))).trans
    (Memory.read_write_of_not_mem (.inr (by omega)))

/-! ## What `SES.ENCODE` answered (R287) -/

/-- When `SES.ENCODE` has answered `OK`, every check has passed and the answer is the wire packet. -/
theorem exec_sesEncode_ok {s t : State} {wire : Bytes} (hs : s.Inv)
    (ht : exec .sesEncode s = .next t)
    (hr : t.responses = s.responses ++ [0x00#8 :: encodeOperands [.bytes wire]]) :
    s.ses.cipher ≠ 0x0000#16 ∧ s.pkt.badPay = false ∧ s.ses.encodedLength s.pkt ≤ 1500 ∧
      wire = (s.ses.wirePkt s.pkt).bytes := by
  rcases exec_cases ht with ⟨k, rfl⟩ | ⟨u, results, heff, rfl⟩
  · have hresp := List.append_cancel_left hr
    exact absurd (List.head_eq_of_cons_eq (List.head_eq_of_cons_eq hresp)) k.code_ne_ok
  · cases heff with
    | read hi => cases hi
    | rtpEdit hf => cases hf
    | rtcpEdit hf => cases hf
    | encode hc hv hpay hfits hw =>
      obtain ⟨-, -, -, hses⟩ := hs
      rw [s.ses.encodePkt_eq s.pkt hpay (hses.keys_fit hc).1 hfits] at hw
      obtain rfl := Except.ok.inj hw
      have hresp := List.append_cancel_left hr
      have hbytes := List.tail_eq_of_cons_eq (List.head_eq_of_cons_eq hresp)
      rw [encodeOperands_singleton, encodeOperands_singleton, encodeOperand_bytes,
        encodeOperand_bytes] at hbytes
      exact ⟨hc, hpay, hfits, (List.append_inj_right hbytes (by simp)).symm⟩

/-! ## The statements -/

/-- Settles O55: past the checks the slot holds the sealed packet with its tail, and the counters
move on only with REWRITE. -/
theorem sesEncodeBuildsTheWirePacket : Obligations.SesEncodeBuildsTheWirePacket := by
  intro s hs p e nseq ohb tail total head iv sealed wire
  by_cases hc : e.cipher = 0x0000#16
  · rw [if_pos hc]
    exact exec_transform_of_no_cipher rfl hc
  rw [if_neg hc]
  by_cases hempty : p.valid = false
  · rw [if_pos hempty]
    exact exec_sesEncode_empty hc hempty
  rw [if_neg hempty, if_congr (badPay_iff p).symm rfl rfl]
  have hexec := exec_sesEncode_loaded hc (by simpa using hempty)
  have hohb : e.ohb p = ohb := e.ohb_eq p
  have htotal : e.encodedLength p = total := by rw [Ses.encodedLength_eq, hohb]; rfl
  rw [show s.ses.encodedLength s.pkt = total from htotal] at hexec
  by_cases hpay : p.badPay = true
  · rw [if_pos hpay] at hexec ⊢
    exact hexec
  rw [if_neg hpay] at hexec ⊢
  by_cases hsize : 1500 < total
  · rw [if_pos hsize] at hexec ⊢
    exact hexec
  rw [if_neg hsize] at hexec ⊢
  have hpay : p.badPay = false := by simpa using hpay
  obtain ⟨-, -, -, hses⟩ := hs
  have henc := e.encodePkt_eq p hpay (hses.keys_fit hc).1 (by omega)
  have hwire : (e.wirePkt p).bytes = wire := by
    rw [e.wirePkt_bytes_eq hpay, Ses.wireSeal, hohb]
    rfl
  have hwlen : (e.wirePkt p).len = total := (e.wirePkt_len hpay).trans htotal
  have hlen : wire.length = total := by rw [← hwire, Pkt.length_bytes, hwlen]
  obtain ⟨b, len, hedit⟩ := Pkt.edited_encodePkt henc
  have hans := hexec.trans (perform_map_ok henc)
  rw [hwire] at hans
  have hpatched : Memory.patched b p.buf 0 wire := by
    rw [hedit] at hwire hwlen
    subst hwlen
    refine Memory.patched_of_slice (hlen ▸ hwire) fun i hi => ?_
    have hbehind := e.wirePkt_octet_behind p hpay (i := i)
    rw [hedit] at hbehind
    exact hbehind (hlen ▸ hi)
  rw [hedit] at hans hwlen
  obtain rfl : len = total := hwlen
  by_cases hrw : e.rewrite = true
  · rw [if_pos hrw] at hans
    refine ⟨b, e.advance.seq, e.advance.roc, hans, hlen, hpatched, ?_⟩
    rw [if_pos hrw]
    exact e.advance_counter
  · rw [if_neg hrw] at hans
    refine ⟨b, e.seq, e.roc, hans, hlen, hpatched, ?_⟩
    rw [if_neg hrw]
    exact ⟨rfl, rfl⟩

/-- Settles O56: `SES.DECODE` raises what the split of the tail raises. -/
theorem ektTailIsSplitFromItsEnd : Obligations.EktTailIsSplitFromItsEnd := by
  intro wire s hc hekt hmax n cmd field total
  have hmax : ¬ 1500 < wire.length := by omega
  have hsplit : ektSplit wire = if n < 1 ∨ (cmd ≠ 0x00#8 ∧ cmd ≠ 0x02#8) ∨
      (cmd = 0x02#8 ∧ n < 3) ∨ n ≤ total then .error .malformedEkt else .ok total :=
    ektSplit_eq wire
  by_cases hbad : n < 1 ∨ (cmd ≠ 0x00#8 ∧ cmd ≠ 0x02#8) ∨ (cmd = 0x02#8 ∧ n < 3) ∨ n ≤ total
  · rw [if_pos hbad] at hsplit ⊢
    exact exec_sesDecode_of_split_error hc hmax ((if_pos hekt).trans hsplit)
  · rw [if_neg hbad] at hsplit ⊢
    refine ⟨hsplit, fun hshort => ?_⟩
    rw [exec_sesDecode_of_split hc hmax ((if_pos hekt).trans hsplit), if_pos hshort]
    rfl

/-- Settles O57: the copy is opened (R263), its OHB read (R203) and its header restored. -/
theorem sesDecodeOpensTheWirePacket : Obligations.SesDecodeOpensTheWirePacket := by
  intro wire s hs e i
  by_cases hc : e.cipher = 0x0000#16
  · rw [if_pos hc]
    exact exec_transform_of_no_cipher rfl hc
  rw [if_neg hc]
  by_cases hmax : 1500 < wire.length
  · rw [if_pos hmax]
    exact exec_sesDecode_too_long hc hmax
  rw [if_neg hmax]
  intro total hsplit n packet tail c off iv
  have hexec := exec_sesDecode_of_split hc hmax hsplit
  have hn : packet.length = n := by rw [List.length_take, Nat.min_eq_left (Nat.sub_le _ _)]
  have hbad : (c.x = true ∧ n < c.extOff + 4) ∨ n < off ↔ c.badPay = true := by
    rw [badPay_iff, ← hn]
    rfl
  rw [if_congr (or_congr_right hbad) rfl rfl]
  by_cases hmin : n < 12
  · rw [if_pos hmin] at hexec
    rw [if_pos (.inl hmin)]
    exact hexec
  rw [if_neg hmin] at hexec
  obtain ⟨-, -, -, hses⟩ := hs
  have hdec := Pkt.decGcm_of_keys (p := c) (roc := e.roc) (hses.keys_fit hc).1
  by_cases hpay : c.badPay = true
  · rw [if_pos hpay] at hdec
    rw [if_pos (.inr hpay)]
    exact hexec.trans (perform_map_error (Ses.decodePkt_of_not_opened hdec))
  rw [if_neg hpay] at hdec
  rw [if_neg (not_or.mpr ⟨hmin, hpay⟩)]
  rw [show c.len = n from hn] at hdec
  by_cases hroom : n < off + 16
  · rw [if_pos hroom] at hdec ⊢
    exact hexec.trans (perform_map_error (Ses.decodePkt_of_not_opened hdec))
  rw [if_neg hroom] at hdec ⊢
  have hopened := s.pkt.openedPayload_load (packet := packet) e.roc e.liveRtpKey e.rtpSalt
    (hn ▸ not_lt.mp hroom)
  rw [hn] at hopened
  split
  · next hopen =>
    rw [show c.openedPayload e.roc e.liveRtpKey e.rtpSalt = none from hopened.trans hopen] at hdec
    exact hexec.trans (perform_map_error (Ses.decodePkt_of_not_opened hdec))
  · next plain hopen =>
    intro d
    have hopen := hopened.trans hopen
    rw [show c.openedPayload e.roc e.liveRtpKey e.rtpSalt = some plain from hopen] at hdec
    have hend : off + plain.length = n - 16 :=
      (Pkt.end_of_openedPayload (p := c) (by rw [show c.len = n from hn]; omega) hopen).trans
        (congrArg (· - 16) hn)
    have hd : (c.replacePayload plain).bytes = d :=
      s.pkt.bytes_replacePayload_load plain (show off ≤ packet.length by omega)
    have h12 : 12 ≤ off := c.le_extOff.trans c.extOff_le_payOff
    have hqlen : (c.replacePayload plain).len = off + plain.length := rfl
    have hohb : (c.replacePayload plain).getOhb = (s.pkt.load d).getOhb :=
      Pkt.getOhb_eq_of_bytes (hd.trans (s.pkt.bytes_load d).symm) (by omega)
    have hdecode := Ses.decodePkt_of_opened hdec
    rw [hohb] at hdecode
    split
    · next k hk =>
      rw [hk, Pkt.getOhb_error hk] at hdecode
      exact hexec.trans (perform_map_error hdecode)
    · next pt seq m hk =>
      rw [hk] at hdecode hohb
      intro len
      have hlen : ((c.replacePayload plain).restore pt seq m).len = len :=
        Pkt.len_restore_of_bytes hd (by omega)
      refine ⟨((c.replacePayload plain).restore pt seq m).buf, Memory.write s.pkt.ekt 0 tail, ?_,
        ?_, fun a ha => ?_, Memory.patched_write _ _ _⟩
      · rw [← hlen]
        exact hexec.trans (perform_map_ok hdecode)
      · rw [← hlen]
        exact Pkt.bytes_restore_of_bytes hd hohb
      · exact (Pkt.restore_octet_behind (by omega)).trans
          (s.pkt.replacePayload_load_octet_behind (show off + plain.length ≤ packet.length by omega)
            (by omega))

/-- R289: the wire packet splits into the sealed packet and the tail that was sent. -/
theorem Ses.split_wirePkt {e : Ses} {p : Pkt} (hp : p.Inv) (hpay : p.badPay = false) :
    (if e.useEkt then ektSplit (e.wirePkt p).bytes else .ok 0) =
      .ok (e.sentTail p).length := by
  have hlen := e.sealedPkt_len p hpay
  by_cases hekt : e.useEkt = true
  · have htail : e.sentTail p = p.ektTag := if_pos hekt
    rw [if_pos hekt, Ses.wirePkt_bytes, htail]
    exact ektSplit_append hp.isEktTail (by rw [Pkt.length_bytes]; omega)
  · rw [if_neg hekt, Ses.sentTail, if_neg hekt]
    rfl

/-- Settles O58: the split gives back the sealed packet, which any session with these keys opens and
restores. -/
theorem sessionRoundTrip : Obligations.SessionRoundTrip := by
  intro s t u wire hs ht hr hcipher hekt hroc hkey hklen hsalt
  obtain ⟨hc, hpay, hfits, rfl⟩ := exec_sesEncode_ok hs ht hr
  obtain ⟨hpkt, -, -, hses⟩ := hs
  have hlive : u.ses.liveRtpKey = s.ses.liveRtpKey := by
    rw [Ses.liveRtpKey, hkey, hklen, Ses.liveRtpKey]
  have hsplit := Ses.split_wirePkt (e := s.ses) hpkt hpay
  have hsealed := s.ses.sealedPkt_len s.pkt hpay
  have hbytes := s.ses.wirePkt_bytes s.pkt
  have hwlen : (s.ses.wirePkt s.pkt).bytes.length ≤ 1500 := by
    rw [Pkt.length_bytes, s.ses.wirePkt_len hpay]
    exact hfits
  have h12 := (s.pkt.le_extOff.trans s.pkt.extOff_le_payOff).trans
    (s.pkt.badPay_eq_false_iff.mp hpay).2
  obtain ⟨q, hdec, hqlen, hqbytes⟩ := Ses.decodePkt_sealed (u := u.pkt) hpay (hses.keys_fit hc).1
    hfits hroc hlive hsalt
  have hn : (s.ses.wirePkt s.pkt).bytes.length - (s.ses.sentTail s.pkt).length =
      (s.ses.sealedPkt s.pkt).bytes.length := by
    rw [hbytes, List.length_append, Nat.add_sub_cancel]
  rw [← hekt] at hsplit
  have hexec := exec_sesDecode_of_split (hcipher ▸ hc) (not_lt.mpr hwlen) hsplit
  rw [hn, if_neg (by rw [Pkt.length_bytes]; omega), hbytes, List.take_left, List.drop_left,
    ← hbytes, hekt] at hexec
  have hans := hexec.trans (perform_map_ok hdec)
  have htail : (if s.ses.useEkt then s.ses.sentTail s.pkt else [0x00#8]) =
      if s.ses.useEkt then s.pkt.ektTag else [0x00#8] :=
    if_ctx_congr Iff.rfl (fun h => if_pos h) fun _ => rfl
  rw [htail, Pkt.setEkt, Pkt.decodePkt_valid hdec, hqlen] at hans
  refine ⟨q.buf, _, _, ?_, ?_, Memory.slice_write_same q.ekt 0 _ _ rfl⟩
  · exact hans
  · rw [Pkt.bytes, Pkt.bytes, hqlen] at hqbytes
    exact hqbytes

end Sys2Proof.Machine
end
